-- ==== Sys2Proof/Word.lean ====
section
/-! DEFINITION. The word types of the block: 16-bit words on the bus, 8-bit bytes, 32-bit command and response words. -/

namespace Sys2Proof

/-- A logical mask, a physical register value or a bus data word: 16 bits, bit 0 the least significant (R5, R9). -/
abbrev Word := BitVec 16

/-- A device address, a bus handle, a register offset or one byte of a device register (R10, R36). -/
abbrev Byte := BitVec 8

/-- A command word or a response word (R85, R87). -/
abbrev PortWord := BitVec 32

end Sys2Proof
end

