-- ==== Sys2Proof/Syntax.lean ====
section
/-! DEFINITION. The instructions: one constructor per row of spec/opcode_table.json. -/

namespace Sys2Proof

/-- The five commands (R86) and the three function units (R92). `stack`, `relay` and DEVADDR's operand are mathematical
integers, which may be out of range and are then answered InvalidArgument (R84, C1). -/
inductive Instr where
  /-- INIT stack, bus (R141). -/
  | init (stack : Int) (bus : Byte)
  /-- SET relay, on (R151). -/
  | set (relay : Int) (on : Bool)
  /-- SET_ALL mask (R160). -/
  | setAll (mask : Word)
  /-- GET relay (R171). -/
  | get (relay : Int)
  /-- GET_ALL (R176). -/
  | getAll
  /-- The function unit R2IO on a logical mask (R111). -/
  | r2io (v : Word)
  /-- The function unit IO2R on a physical mask (R112). -/
  | io2r (v : Word)
  /-- The function unit DEVADDR on a stack level (R131). -/
  | devaddr (x : Int)
  deriving DecidableEq, Repr

end Sys2Proof
end

