-- ==== Sys2Proof/Config.lean ====
section
/-! DEFINITION. What stays fixed while the machine runs and the spec leaves to the platform (R6), and the fixed limits of R5. -/

namespace Sys2Proof

/-- What a byte of a device register holds that nothing has written since the model's run began, by its address in
`Machine.State.mem`. The spec leaves it open (R39, D15: "A model must not assume `OUTPUT` = 0"), so the constant has no
body: no proof can see a value of it. notes/assumptions/2.md. -/
opaque Config.initialByte : Nat → Byte

/-- BUS_DEFAULT (R6, D20): the handle of the "first bus". The spec gives no number; no rule of the block reads it, because
the command word always carries a handle. notes/assumptions/19.md. -/
opaque Config.busDefault : Byte

/-- N_RELAYS (R5): relay indexes run from 1 to this. -/
def Config.nRelays : Nat := 16

/-- STACK_DEFAULT (R5): the stack level of the source's constructor when the caller passes none. -/
def Config.stackDefault : Int := 0

/-- The source's construction when the caller passes neither parameter: stack level 0 on the first bus (R84, R220). The
command word itself has no defaults. -/
def Config.initDefault : Instr := .init Config.stackDefault Config.busDefault

end Sys2Proof
end

