-- ==== Sys2Proof/WellFormed.lean ====
section
/-! DEFINITION. Which instructions have an encoding: the integer operands fit the 16-bit two's complement field that
carries them (R84, D5). A well-formed instruction may still have an operand the command refuses (`SET 17, on`). -/

namespace Sys2Proof

/-- `n` is the value of some 16-bit two's complement field (R84: "-32768..32767"). -/
def fitsField (n : Int) : Bool := decide (-32768 ≤ n) && decide (n ≤ 32767)

/-- The instruction has an encoding. -/
def Instr.wf : Instr → Bool
  | .init stack _ => fitsField stack
  | .set relay _ => fitsField relay
  | .setAll _ => true
  | .get relay => fitsField relay
  | .getAll => true
  | .r2io _ => true
  | .io2r _ => true
  | .devaddr x => fitsField x

end Sys2Proof
end

