-- ==== Sys2Proof/Decode.lean ====
section
/-! DEFINITION. The command decoder of R86 and R89, total on 32-bit words, rejecting by name; the function units' inputs
(R92); the encoder; and the host's numbering of an instruction's bits. -/

namespace Sys2Proof

/-- What arrives at the input port of one function unit. The port chooses the unit: the units have no opcode (R92). -/
inductive UnitInput where
  | r2io (v : Word)
  | io2r (v : Word)
  /-- DEVADDR's integer, carried as `sext_16` of a 16-bit field. -/
  | devaddr (x : Word)
  deriving DecidableEq, Repr

/-- What the block can be given to execute: a word on the command port or an input of a function unit (R80). -/
inductive Stimulus where
  | command (w : PortWord)
  | unit (u : UnitInput)
  deriving DecidableEq, Repr

/-- Why a command word is no command (R89, in the order of that rule's list). -/
inductive IllegalWord where
  /-- `op` is 0x0 or 0x6 to 0xF. -/
  | reservedOpcode
  /-- `rsv` (bits 27:25) is not 0. -/
  | reservedBits
  /-- `f` (bit 24) is 1 and `op` is not SET's. -/
  | flagNotZero
  /-- `bus` (bits 23:16) is not 0 and `op` is not INIT's. -/
  | busNotZero
  /-- `arg` (bits 15:0) is not 0 and `op` is GET_ALL's. -/
  | argNotZero
  deriving DecidableEq, Repr

/-- The decoder's answer on a command word. -/
inductive Decoded where
  | instr (i : Instr)
  | illegal (why : IllegalWord)
  deriving DecidableEq, Repr

/-- `sext_16` of R10: the field as a two's complement integer. -/
def sext16 (v : Word) : Int := v.toInt

/-- The 16-bit two's complement field that carries an integer; exact for the integers `fitsField` admits. -/
def field16 (n : Int) : Word := BitVec.ofInt 16 n

/-! ## The fields of a command word (R85) -/

/-- Bits 31:28. -/
def fieldOp (w : PortWord) : BitVec 4 := w.extractLsb' 28 4
/-- Bits 27:25. -/
def fieldRsv (w : PortWord) : BitVec 3 := w.extractLsb' 25 3
/-- Bit 24. -/
def fieldF (w : PortWord) : BitVec 1 := w.extractLsb' 24 1
/-- Bits 23:16. -/
def fieldBus (w : PortWord) : Byte := w.extractLsb' 16 8
/-- Bits 15:0. -/
def fieldArg (w : PortWord) : Word := w.extractLsb' 0 16

/-- The five opcodes of R86; the remaining values of `op` are reserved (R89). -/
inductive Opcode where
  | init | set | setAll | get | getAll
  deriving DecidableEq, Repr

/-- R86, column `op`. -/
def opcodeOf (op : BitVec 4) : Option Opcode :=
  if op = 0x1#4 then some .init
  else if op = 0x2#4 then some .set
  else if op = 0x3#4 then some .setAll
  else if op = 0x4#4 then some .get
  else if op = 0x5#4 then some .getAll
  else none

/-- R86 with R89: each command allows its own operand fields and wants every other field 0. -/
def decodeCommand (w : PortWord) : Decoded :=
  match opcodeOf (fieldOp w) with
  | none => .illegal .reservedOpcode
  | some o =>
    if fieldRsv w ≠ 0#3 then .illegal .reservedBits
    else if fieldF w ≠ 0#1 ∧ o ≠ .set then .illegal .flagNotZero
    else if fieldBus w ≠ 0#8 ∧ o ≠ .init then .illegal .busNotZero
    else if fieldArg w ≠ 0#16 ∧ o = .getAll then .illegal .argNotZero
    else match o with
      | .init => .instr (.init (sext16 (fieldArg w)) (fieldBus w))
      | .set => .instr (.set (sext16 (fieldArg w)) (fieldF w == 1#1))
      | .setAll => .instr (.setAll (fieldArg w))
      | .get => .instr (.get (sext16 (fieldArg w)))
      | .getAll => .instr .getAll

/-- A function unit's input as an instruction (R92). -/
def UnitInput.instr : UnitInput → Instr
  | .r2io v => .r2io v
  | .io2r v => .io2r v
  | .devaddr x => .devaddr (sext16 x)

/-- The decoder: a command word by R86 and R89, a unit's input by the port it arrives on. -/
def decode : Stimulus → Decoded
  | .command w => decodeCommand w
  | .unit u => .instr u.instr

/-! ## The encoder -/

/-- A command word from its five fields, in the layout of R85; `rsv` is 0. -/
def packCommand (op : BitVec 4) (f : BitVec 1) (bus : Byte) (arg : Word) : PortWord :=
  op.setWidth 32 <<< 28 ||| f.setWidth 32 <<< 24 ||| bus.setWidth 32 <<< 16 ||| arg.setWidth 32

/-- R86, the row of each command; R92 for the function units. -/
def encode : Instr → Stimulus
  | .init stack bus => .command (packCommand 0x1#4 0#1 bus (field16 stack))
  | .set relay on => .command (packCommand 0x2#4 (BitVec.ofBool on) 0#8 (field16 relay))
  | .setAll mask => .command (packCommand 0x3#4 0#1 0#8 mask)
  | .get relay => .command (packCommand 0x4#4 0#1 0#8 (field16 relay))
  | .getAll => .command (packCommand 0x5#4 0#1 0#8 0#16)
  | .r2io v => .unit (.r2io v)
  | .io2r v => .unit (.io2r v)
  | .devaddr x => .unit (.devaddr (field16 x))

/-! ## The host's numbering -/

/-- The stimulus that `nbits` bits numbered as spec/opcode_table.json numbers them stand for: the 32-bit rows are command
words; a 16-bit row is a function unit's input. The three 16-bit rows hold operand bits only, so the bits choose no unit:
they are given to R2IO, the first of the three rows (DESIGN CHOICE, notes/assumptions/8.md). -/
def tableStimulus (nbits w : Nat) : Stimulus :=
  if nbits = 16 then .unit (.r2io (BitVec.ofNat 16 w)) else .command (BitVec.ofNat 32 w)

/-- The instruction the decoder reads from those bits. -/
def decodeTableWord (nbits w : Nat) : Option Instr :=
  match decode (tableStimulus nbits w) with
  | .instr i => some i
  | .illegal _ => none

end Sys2Proof
end

