-- ==== Sys2Proof/Machine/State.lean ====
section
/-! DEFINITION. The machine's state as plain data: the controller registers (R22), the device registers of the bus register
space (R28, R36), the three ports (R80), the function units' ports (R92), and the outside world's coming moves (R6, R20);
the reasons a step can stop; the state after reset (R38, R215). -/

namespace Sys2Proof.Machine

/-- PHASE (R24): where the sequencer is inside the current command. -/
inductive Phase where
  | idle | initRd | initWr | setRd | setWr | setAllWr | getRd | getAllRd
  deriving DecidableEq, Repr

/-- OP (R22): the command being executed. -/
inductive Op where
  | init | set | setAll | get | getAll
  deriving DecidableEq, Repr

/-- The four word registers of a target device (R28). -/
inductive Reg where
  | input | output | polarityInversion | configuration
  deriving DecidableEq, Repr

/-- A transport cause (R54): the three the source names, and the codes 0x04 to 0xFF the transport may define. -/
inductive Cause where
  | nack
  | timeout
  | arbitrationLoss
  /-- Cause code `4 + k`. -/
  | other (k : Fin 252)
  deriving DecidableEq, Repr

/-- The transport's answer to the request that is due (R51, R52). Which answer comes is not the block's to decide (D11). -/
inductive Answer where
  | ok
  /-- The request failed with cause `c`. If it was a write, the register holds `left` afterwards: any value (R56, D13). If it
  was a read, `left` means nothing. -/
  | err (c : Cause) (left : Word)
  deriving DecidableEq, Repr

/-- What the block's registers hold after a block reset where the spec says "unspecified" (R38, R215): any value at all.
DEV_ADDR's bit 7 is always 0 (R22), so its contents are 7 bits. -/
structure Unspecified where
  stack : BitVec 3
  busId : Byte
  devAddr : BitVec 7
  op : Op
  arg : BitVec 4
  flag : Bool
  data : Word
  tmp : Word
  deriving DecidableEq, Repr

/-- One move of the outside world. Moves are atomic and land between two steps of the controller (R20, R62). -/
inductive Input where
  /-- The host presents a command word (R20, R81). -/
  | command (w : PortWord)
  /-- Something drives the input of a function unit (R92). -/
  | unit (u : UnitInput)
  /-- The transport answers the request that is due (R51, R52). -/
  | answer (a : Answer)
  /-- Another master reads a register: it changes nothing (R30, D14). -/
  | masterRead (bus dev : Byte) (reg : Reg)
  /-- Another master's write transaction ends, and the register holds `v`: the value written if it succeeded, any value if it
  failed (R56) or if the register is INPUT, of which the spec does not say whether it accepts writes (R35). -/
  | masterWrite (bus dev : Byte) (reg : Reg) (v : Word)
  /-- A device is power-cycled and takes its power-up values OUT_RESET, POL_RESET, CFG_RESET; INPUT follows the pins (R39, R216). -/
  | powerCycle (bus dev : Byte) (outReset polReset cfgReset pins : Word)
  /-- The pins of a device change, and INPUT with them (R39, D15). -/
  | pins (bus dev : Byte) (v : Word)
  /-- The block is reset (R215 to R217). `inFlight` is some value when a transaction was in flight; if that was a write, the
  register holds the value afterwards (R217, R56). -/
  | blockReset (u : Unspecified) (inFlight : Option Word)
  deriving DecidableEq, Repr

/-- One record of the transport port (R90), with the outcome where one came. -/
inductive BusRecord where
  | opened (bus : Byte)
  | closed
  | readOk (dev off : Byte) (w : Word)
  | readErr (dev off : Byte) (c : Cause)
  | writeOk (dev off : Byte) (v : Word)
  | writeErr (dev off : Byte) (v : Word) (c : Cause)
  /-- A block reset abandoned the transaction in flight (R217). -/
  | abandoned (dev off : Byte)
  deriving DecidableEq, Repr

/-- The ports of the three function units (R92). `devOut` is none when DEVADDR's valid bit is 0. -/
structure Units where
  r2ioIn : Word
  r2ioOut : Word
  io2rIn : Word
  io2rOut : Word
  devIn : Int
  devOut : Option Byte
  deriving DecidableEq, Repr

/-- The bus register space as (address, byte) cells, addresses strictly rising. An unlisted address holds nothing the
model knows: it reads as the open `Config.initialByte` of its address (notes/assumptions/2.md). -/
abbrev Memory := List Host.Cell

structure State where
  /-- STACK (R22). -/
  stack : BitVec 3
  /-- BUS_ID (R22). -/
  busId : Byte
  /-- DEV_ADDR (R22). -/
  devAddr : Byte
  /-- CONSTRUCTED (R22). -/
  constructed : Bool
  /-- PHASE (R24). -/
  phase : Phase
  /-- OP (R22). -/
  op : Op
  /-- ARG (R22): `relay - 1`. -/
  arg : BitVec 4
  /-- FLAG (R22): SET's `on`. -/
  flag : Bool
  /-- DATA (R22): SET_ALL's mask. -/
  data : Word
  /-- TMP (R22): the word the read step of SET or INIT returned, in physical bit order. -/
  tmp : Word
  /-- SESS (R22, R26). -/
  sess : Bool
  /-- The registers of the target devices (R28, R36). -/
  mem : Memory
  /-- The command port (R80, R81): the word presented and not yet accepted. -/
  cmd : Option PortWord
  /-- The response port (R82, R87): the response of the command that ended last, none once another is in progress. -/
  rsp : Option PortWord
  /-- The transport port (R90): every record exchanged, newest first. -/
  xport : List BusRecord
  /-- The function units' ports (R92). -/
  units : Units
  /-- A function unit's input not yet evaluated (R92). -/
  unitPort : Option UnitInput
  /-- The model's own field: the outside world's coming moves, in their total order (R65; notes/assumptions/3.md). -/
  inputs : List Input
  deriving DecidableEq, Repr

/-- Reasons for a step to stop with a fault. There are none, and so no constructor: every error of the spec is a status in the
response word (R185, R186), and what the spec gives no step is a `Refusal`. Safe. notes/assumptions/25.md. -/
inductive Fault where
  deriving DecidableEq, Repr

/-- Reasons for a step to be refused. -/
inductive Refusal where
  /-- An instruction the model gives no meaning yet, by its mnemonic in the opcode table; raised by `exec`. Safe. -/
  | notModelled (mnemonic : String)
  /-- SET, SET_ALL, GET or GET_ALL while CONSTRUCTED = 0: "no transition and no response" (R191); raised by those meanings.
  Safe. -/
  | notConstructed
  /-- INIT while CONSTRUCTED = 1: "no transition and no response" (R148); raised by INIT's meaning. Safe. -/
  | alreadyConstructed
  /-- A command while another one is in progress: the port "accepts nothing" (R83); raised by a meaning called outside the
  phases of its own command, which `step` never does. Safe. -/
  | commandInProgress
  /-- The host presents a second word while the first still waits on the command port, against R20 and R83; raised by
  `State.envStep`. Safe. -/
  | commandPortOccupied
  deriving DecidableEq, Repr

/-- The machine right after reset (R38, R215, R216). CONSTRUCTED, PHASE and SESS have the spec's values; STACK, BUS_ID, DEV_ADDR,
OP, ARG, FLAG, DATA and TMP are "unspecified" there, and their values here are a DESIGN CHOICE (notes/assumptions/1.md). Nothing of
the device registers is listed, no port holds anything, and the outside world has no move to make. -/
def State.reset : State where
  stack := 0#3
  busId := 0#8
  devAddr := 0#8
  constructed := false
  phase := .idle
  op := .init
  arg := 0#4
  flag := false
  data := 0#16
  tmp := 0#16
  sess := false
  mem := []
  cmd := none
  rsp := none
  xport := []
  units := { r2ioIn := 0#16, r2ioOut := 0#16, io2rIn := 0#16, io2rOut := 0#16, devIn := 0, devOut := some 0x27#8 }
  unitPort := none
  inputs := []

end Sys2Proof.Machine
end

