-- ==== Sys2Proof/Machine/DevAddr.lean ====
section
/-! DEFINITION. Device Addressing (spec/41_addressing.md): the unit DEVADDR and its meaning as a function unit. -/

namespace Sys2Proof.Machine

/-- BASE_ADDRESS (R5). -/
def baseAddress : Byte := 0x20#8

/-- STACK_MASK (R5). -/
def stackMask : Byte := 0x07#8

/-- DEVADDR (R131): none is InvalidArgument. The check comes before the computation. -/
def devaddr (x : Int) : Option Byte :=
  if x < 0 ∨ x > 7 then none else some (baseAddress + (stackMask ^^^ BitVec.ofInt 8 x))

/-- The function unit DEVADDR (R92, R131): its output port takes the address, or valid = 0 for InvalidArgument. -/
def execDevaddr (x : Int) (s : State) : Host.Outcome State Fault Refusal :=
  .next { s with units := { s.units with devIn := x, devOut := devaddr x } }

end Sys2Proof.Machine
end

