-- ==== Sys2Proof/Machine/Flags.lean ====
section
/-! DEFINITION. The block has no status flags (R27): every outcome is a status in the response word. This file holds what stands
in their place: the exceptions, the status codes, the cause codes and the layout of the response word. -/

namespace Sys2Proof.Machine

/-- The exceptions of R187, R188, R189 and R192, with the transport cause the last two wrap. -/
inductive Exc where
  | illegal
  | invalidArgument
  | initializationError (c : Cause)
  | operationError (c : Cause)
  deriving DecidableEq, Repr

/-- Status codes (R88). -/
def Exc.status : Exc → BitVec 4
  | .illegal => 0xF#4
  | .invalidArgument => 0x1#4
  | .initializationError _ => 0x2#4
  | .operationError _ => 0x3#4

/-- The status code OK (R88). -/
def statusOk : BitVec 4 := 0x0#4

/-- Cause codes (R54): 0x00 is never an error's. -/
def Cause.code : Cause → Byte
  | .nack => 0x01#8
  | .timeout => 0x02#8
  | .arbitrationLoss => 0x03#8
  | .other k => BitVec.ofNat 8 (4 + k.val)

/-- The field `cause` of the response (R87): the wrapped cause, 0x00 for the two exceptions that wrap none. -/
def Exc.info : Exc → Byte
  | .illegal => 0x00#8
  | .invalidArgument => 0x00#8
  | .initializationError c => c.code
  | .operationError c => c.code

/-- The response word (R87, R190): status in bits 31:28, zero in 27:24, cause in 23:16, data in 15:0. -/
def response (status : BitVec 4) (cause : Byte) (data : Word) : PortWord :=
  status.setWidth 32 <<< 28 ||| cause.setWidth 32 <<< 16 ||| data.setWidth 32

/-- The response word of an exception: `data` is 0x0000 (R87). -/
def Exc.response (e : Exc) : PortWord := Machine.response e.status e.info 0#16

end Sys2Proof.Machine
end

