-- ==== Sys2Proof/Machine/Operands.lean ====
section
/-! DEFINITION. The operands of the commands: the range check of a relay index, its logical bit number, the change of one bit
of a logical mask, and the boolean a GET answers (R84, R151, R153, R171, R172). -/

namespace Sys2Proof.Machine

/-- The range check of SET and GET (R151, R171): `1 <= relay <= 16`. -/
def relayLegal (relay : Int) : Bool := decide (1 ≤ relay) && decide (relay ≤ Config.nRelays)

/-- What ARG latches (R151, R171): `relay - 1`, in 0..15 for a legal relay. -/
def relayBit (relay : Int) : BitVec 4 := BitVec.ofInt 4 (relay - 1)

/-- SET's change of the logical mask (R153): set or clear bit `k`. -/
def changeBit (l : Word) (k : Nat) (on : Bool) : Word :=
  if on then l ||| 1#16 <<< k else l &&& ~~~(1#16 <<< k)

/-- GET's result (R172): 0x0001 when the bit is 1, else 0x0000. -/
def boolData (b : Bool) : Word := if b then 0x0001#16 else 0x0000#16

end Sys2Proof.Machine
end

