-- ==== Sys2Proof/Machine/Remap.lean ====
section
/-! DEFINITION. The Bit Remapper (spec/40_remap.md): the constant table, the two directions, and the meanings of the function
units R2IO and IO2R. -/

namespace Sys2Proof.Machine

/-- `remap_table` (R5, R110): entry i is the physical mask of relay i + 1. -/
def remapTable : List Word :=
  [0x8000#16, 0x4000#16, 0x2000#16, 0x1000#16, 0x0800#16, 0x0400#16, 0x0200#16, 0x0100#16,
   0x0080#16, 0x0040#16, 0x0020#16, 0x0010#16, 0x0008#16, 0x0004#16, 0x0002#16, 0x0001#16]

/-- R2IO (R111): OR together the table entries of the bits set in the logical mask. -/
def r2io (v : Word) : Word :=
  remapTable.zipIdx.foldl (fun r (e, i) => if v.getLsbD i then r ||| e else r) 0#16

/-- IO2R (R112): OR together `1 << i` for the entries that meet the physical mask. -/
def io2r (v : Word) : Word :=
  remapTable.zipIdx.foldl (fun r (e, i) => if v &&& e ≠ 0#16 then r ||| 1#16 <<< i else r) 0#16

/-- The function unit R2IO (R92, R111): its output port takes the physical mask. It reads and writes no controller register
and touches no bus, whatever the phase. -/
def execR2io (v : Word) (s : State) : Host.Outcome State Fault Refusal :=
  .next { s with units := { s.units with r2ioIn := v, r2ioOut := r2io v } }

/-- The function unit IO2R (R92, R112). -/
def execIo2r (v : Word) (s : State) : Host.Outcome State Fault Refusal :=
  .next { s with units := { s.units with io2rIn := v, io2rOut := io2r v } }

end Sys2Proof.Machine
end

