-- ==== Sys2Proof/Machine/Ops.lean ====
section
/-! DEFINITION. The operations the meanings share: memory by byte and by word, the register space, the session, one bus
transaction of each kind, the start of a command, taking an exception and ending a command. -/

namespace Sys2Proof.Machine

/-! ## Memory: a sorted list of cells -/

/-- What is listed at an address. -/
def Memory.get : Memory → Nat → Option Byte
  | [], _ => none
  | (a, b) :: rest, k => if a = k then some b else Memory.get rest k

/-- Store one byte, keeping the addresses strictly rising. -/
def Memory.put : Memory → Nat → Byte → Memory
  | [], k, v => [(k, v)]
  | (a, b) :: rest, k, v =>
    if k < a then (k, v) :: (a, b) :: rest
    else if k = a then (k, v) :: rest
    else (a, b) :: Memory.put rest k v

/-- Every address listed is above `k` and they rise strictly. -/
def Memory.above : Nat → Memory → Bool
  | _, [] => true
  | k, (a, _) :: rest => decide (k < a) && Memory.above a rest

/-- The canonical form: addresses strictly rising. An unlisted address holds no listed byte at all, so no entry can equal
what an unlisted address holds. -/
def Memory.wf : Memory → Bool
  | [] => true
  | (a, _) :: rest => Memory.above a rest

/-- The byte at an address: what is listed, else the open contents of a register nothing has written (R39). -/
def Memory.readByte (m : Memory) (k : Nat) : Byte := (m.get k).getD (Config.initialByte k)

/-- The word whose low byte is at `k` (R60: bits 7..0 at the lower offset). -/
def Memory.readWord (m : Memory) (k : Nat) : Word :=
  (m.readByte (k + 1)).setWidth 16 <<< 8 ||| (m.readByte k).setWidth 16

/-- Store a word, its low byte at `k` (R60). -/
def Memory.writeWord (m : Memory) (k : Nat) (v : Word) : Memory :=
  (m.put k (v.extractLsb' 0 8)).put (k + 1) (v.extractLsb' 8 8)

/-! ## The bus register space -/

/-- Register offsets in bytes (R5, R28). -/
def Reg.offset : Reg → Byte
  | .input => 0x00#8
  | .output => 0x02#8
  | .polarityInversion => 0x04#8
  | .configuration => 0x06#8

/-- Where the register's low byte stands in `mem`: by bus handle, device address and offset (R36; notes/assumptions/5.md). -/
def regAddr (bus dev : Byte) (reg : Reg) : Nat := bus.toNat * 65536 + dev.toNat * 256 + reg.offset.toNat

/-- `T[dev].reg` on a bus (R10): the word a device register holds. -/
def State.device (s : State) (bus dev : Byte) (reg : Reg) : Word := s.mem.readWord (regAddr bus dev reg)

/-- The state in which a device register holds `v`, all 16 bits replaced at once (R52). -/
def State.setDevice (s : State) (bus dev : Byte) (reg : Reg) (v : Word) : State :=
  { s with mem := s.mem.writeWord (regAddr bus dev reg) v }

/-- The address the controller's transaction on `reg` goes to: always the device at `x[DEV_ADDR]` (R57) on the bus whose
session is open. -/
def State.target (s : State) (reg : Reg) : Nat := regAddr s.busId s.devAddr reg

/-! ## The session (R53, D10) -/

/-- `Open(x[BUS_ID])`. -/
def State.openSession (s : State) : State := { s with sess := true, xport := .opened s.busId :: s.xport }

/-- `Close()`, where a session is held (R190: "if x[SESS] == 1: Close()"). -/
def State.closeSession (s : State) : State :=
  if s.sess then { s with sess := false, xport := .closed :: s.xport } else s

/-! ## Bus transactions (R51, R52) -/

/-- The outcome of a bus transaction as the controller sees it. -/
inductive Txn (α : Type) where
  /-- No answer has come: the controller blocks (R51, R70). -/
  | waiting
  | ok (a : α) (s : State)
  | err (c : Cause) (s : State)
  deriving Repr

/-- The state in which the transport's answer has been taken and `r` recorded on the transport port. -/
def State.answered (s : State) (r : BusRecord) : State := { s with inputs := s.inputs.tail, xport := r :: s.xport }

/-- `MemRead((x[DEV_ADDR], reg), 2)` (R51): a word with no other effect, or an error with no effect at all. -/
def State.memRead (s : State) (reg : Reg) : Txn Word :=
  match s.inputs with
  | .answer .ok :: _ =>
    .ok (s.mem.readWord (s.target reg)) (s.answered (.readOk s.devAddr reg.offset (s.mem.readWord (s.target reg))))
  | .answer (.err c _) :: _ => .err c (s.answered (.readErr s.devAddr reg.offset c))
  | _ => .waiting

/-- `MemWrite((x[DEV_ADDR], reg), 2, v)` (R52): the register holds `v`, or on an error any value `left` (R56). -/
def State.memWrite (s : State) (reg : Reg) (v : Word) : Txn Unit :=
  match s.inputs with
  | .answer .ok :: _ =>
    .ok () ({ s with mem := s.mem.writeWord (s.target reg) v }.answered (.writeOk s.devAddr reg.offset v))
  | .answer (.err c left) :: _ =>
    .err c ({ s with mem := s.mem.writeWord (s.target reg) left }.answered (.writeErr s.devAddr reg.offset v c))
  | _ => .waiting

/-! ## The course of a command -/

/-- The end of every acceptance that is not rejected (R81 step 4): latch OP, open the session, enter the first phase. A command
is in progress from here on, so the response port holds nothing. -/
def State.startCommand (s : State) (op : Op) (first : Phase) : State :=
  { s.openSession with op := op, phase := first, rsp := none }

/-- `raise e` (R190): taking an exception. Release the session, respond with the exception's status and cause, go to IDLE.
Nothing is saved: "there is nothing to return to", and no instruction returns from an exception (R196). -/
def State.raise (s : State) (e : Exc) : State := { s.closeSession with rsp := some e.response, phase := .idle }

/-- `return OK(d)` (R10): end the command successfully. -/
def State.returnOk (s : State) (d : Word) : State :=
  { s.closeSession with rsp := some (response statusOk 0x00#8 d), phase := .idle }

end Sys2Proof.Machine
end

