-- ==== Sys2Proof/Machine/Init.lean ====
section
/-! DEFINITION. INIT (spec/42_init.md). -/

namespace Sys2Proof.Machine

/-- INIT: acceptance (R141), with the refusal of R148 before the range check (R194). -/
def initAccept (stack : Int) (bus : Byte) (s : State) : Host.Outcome State Fault Refusal :=
  if s.constructed then .refused .alreadyConstructed
  else match devaddr stack with
    | none => .next (s.raise .invalidArgument)
    | some a =>
      .next ({ s with stack := BitVec.ofInt 3 stack, busId := bus, devAddr := a }.startCommand .init .initRd)

/-- INIT: the read step (R142). The raw word is compared with zero. -/
def initRead (s : State) : Host.Outcome State Fault Refusal :=
  match s.memRead .configuration with
  | .waiting => .next s
  | .err c s' => .next (s'.raise (.initializationError c))
  | .ok w s' =>
    if w = 0x0000#16 then .next ({ s' with constructed := true }.returnOk 0x0000#16)
    else .next { s' with tmp := w, phase := .initWr }

/-- INIT: the write step (R143). The value written is 0x0000 whatever was read. -/
def initWrite (s : State) : Host.Outcome State Fault Refusal :=
  match s.memWrite .configuration 0x0000#16 with
  | .waiting => .next s
  | .err c s' => .next (s'.raise (.initializationError c))
  | .ok _ s' => .next ({ s' with constructed := true }.returnOk 0x0000#16)

/-- INIT: its step in the phase the block is in (R24). -/
def execInit (stack : Int) (bus : Byte) (s : State) : Host.Outcome State Fault Refusal :=
  match s.phase with
  | .idle => initAccept stack bus s
  | .initRd => initRead s
  | .initWr => initWrite s
  | .setRd | .setWr | .setAllWr | .getRd | .getAllRd => .refused .commandInProgress

end Sys2Proof.Machine
end

