-- ==== Sys2Proof/Machine/Read.lean ====
section
/-! DEFINITION. The read commands GET and GET_ALL (spec/44_read_commands.md). Both read OUTPUT, never INPUT. -/

namespace Sys2Proof.Machine

/-- GET: acceptance (R171), with the refusal of R191 before the range check (R194). -/
def getAccept (relay : Int) (s : State) : Host.Outcome State Fault Refusal :=
  if !s.constructed then .refused .notConstructed
  else if relayLegal relay then .next ({ s with arg := relayBit relay }.startCommand .get .getRd)
  else .next (s.raise .invalidArgument)

/-- GET: the read step (R172). -/
def getRead (s : State) : Host.Outcome State Fault Refusal :=
  match s.memRead .output with
  | .waiting => .next s
  | .err c s' => .next (s'.raise (.operationError c))
  | .ok w s' => .next (s'.returnOk (boolData ((io2r w).getLsbD s.arg.toNat)))

/-- GET: its step in the phase the block is in (R24). -/
def execGet (relay : Int) (s : State) : Host.Outcome State Fault Refusal :=
  match s.phase with
  | .idle => getAccept relay s
  | .getRd => getRead s
  | .initRd | .initWr | .setRd | .setWr | .setAllWr | .getAllRd => .refused .commandInProgress

/-- GET_ALL: acceptance (R176). -/
def getAllAccept (s : State) : Host.Outcome State Fault Refusal :=
  if !s.constructed then .refused .notConstructed else .next (s.startCommand .getAll .getAllRd)

/-- GET_ALL: the read step (R177). -/
def getAllRead (s : State) : Host.Outcome State Fault Refusal :=
  match s.memRead .output with
  | .waiting => .next s
  | .err c s' => .next (s'.raise (.operationError c))
  | .ok w s' => .next (s'.returnOk (io2r w))

/-- GET_ALL: its step in the phase the block is in (R24). -/
def execGetAll (s : State) : Host.Outcome State Fault Refusal :=
  match s.phase with
  | .idle => getAllAccept s
  | .getAllRd => getAllRead s
  | .initRd | .initWr | .setRd | .setWr | .setAllWr | .getRd => .refused .commandInProgress

end Sys2Proof.Machine
end

