-- ==== Sys2Proof/Machine/Write.lean ====
section
/-! DEFINITION. The write commands SET and SET_ALL (spec/43_write_commands.md). -/

namespace Sys2Proof.Machine

/-- SET: acceptance (R151), with the refusal of R191 before the range check (R194). -/
def setAccept (relay : Int) (on : Bool) (s : State) : Host.Outcome State Fault Refusal :=
  if !s.constructed then .refused .notConstructed
  else if relayLegal relay then .next ({ s with arg := relayBit relay, flag := on }.startCommand .set .setRd)
  else .next (s.raise .invalidArgument)

/-- SET: the read step (R152). -/
def setRead (s : State) : Host.Outcome State Fault Refusal :=
  match s.memRead .output with
  | .waiting => .next s
  | .err c s' => .next (s'.raise (.operationError c))
  | .ok w s' => .next { s' with tmp := w, phase := .setWr }

/-- The word SET writes (R153): to logical order, change one bit, back to physical order. -/
def setWord (tmp : Word) (arg : BitVec 4) (on : Bool) : Word := r2io (changeBit (io2r tmp) arg.toNat on)

/-- SET: the write step (R153), made whether or not the word differs from the one read. -/
def setWrite (s : State) : Host.Outcome State Fault Refusal :=
  match s.memWrite .output (setWord s.tmp s.arg s.flag) with
  | .waiting => .next s
  | .err c s' => .next (s'.raise (.operationError c))
  | .ok _ s' => .next (s'.returnOk 0x0000#16)

/-- SET: its step in the phase the block is in (R24). -/
def execSet (relay : Int) (on : Bool) (s : State) : Host.Outcome State Fault Refusal :=
  match s.phase with
  | .idle => setAccept relay on s
  | .setRd => setRead s
  | .setWr => setWrite s
  | .initRd | .initWr | .setAllWr | .getRd | .getAllRd => .refused .commandInProgress

/-- SET_ALL: acceptance (R160). Every mask is legal. -/
def setAllAccept (mask : Word) (s : State) : Host.Outcome State Fault Refusal :=
  if !s.constructed then .refused .notConstructed
  else .next ({ s with data := mask }.startCommand .setAll .setAllWr)

/-- SET_ALL: the write step (R161), a blind write. -/
def setAllWrite (s : State) : Host.Outcome State Fault Refusal :=
  match s.memWrite .output (r2io s.data) with
  | .waiting => .next s
  | .err c s' => .next (s'.raise (.operationError c))
  | .ok _ s' => .next (s'.returnOk 0x0000#16)

/-- SET_ALL: its step in the phase the block is in (R24). -/
def execSetAll (mask : Word) (s : State) : Host.Outcome State Fault Refusal :=
  match s.phase with
  | .idle => setAllAccept mask s
  | .setAllWr => setAllWrite s
  | .initRd | .initWr | .setRd | .setWr | .getRd | .getAllRd => .refused .commandInProgress

end Sys2Proof.Machine
end

