-- ==== Sys2Proof/Machine/Dispatch.lean ====
section
/-! DEFINITION. One arm per instruction. -/

namespace Sys2Proof.Machine

def exec (i : Instr) (s : State) : Host.Outcome State Fault Refusal :=
  match i with
  | .init stack bus => Sys2Proof.Machine.execInit stack bus s
  | .set relay on => Sys2Proof.Machine.execSet relay on s
  | .setAll mask => Sys2Proof.Machine.execSetAll mask s
  | .get relay => Sys2Proof.Machine.execGet relay s
  | .getAll => Sys2Proof.Machine.execGetAll s
  | .r2io v => Sys2Proof.Machine.execR2io v s
  | .io2r v => Sys2Proof.Machine.execIo2r v s
  | .devaddr x => Sys2Proof.Machine.execDevaddr x s

end Sys2Proof.Machine
end

