-- ==== Sys2Proof/Machine/Env.lean ====
section
/-! DEFINITION. The moves of the outside world: the host, the transport, the other masters, the device's power and pins, the
block's reset (R20, R39, R62, R215 to R217). -/

namespace Sys2Proof.Machine

/-- The kind of a bus transaction. -/
inductive Access where
  | read | write
  deriving DecidableEq, Repr

/-- The bus transaction that is due in a phase (R24). -/
def Phase.request : Phase → Option (Access × Reg)
  | .idle => none
  | .initRd => some (.read, .configuration)
  | .initWr => some (.write, .configuration)
  | .setRd => some (.read, .output)
  | .setWr => some (.write, .output)
  | .setAllWr => some (.write, .output)
  | .getRd => some (.read, .output)
  | .getAllRd => some (.read, .output)

/-- A transaction in flight when the block is reset "has the effect of a failed one" (R217): a read none, a write any value. -/
def State.abandon (s : State) (inFlight : Option Word) : State :=
  match inFlight, s.phase.request with
  | some left, some (.write, reg) =>
    { s with mem := s.mem.writeWord (s.target reg) left, xport := .abandoned s.devAddr reg.offset :: s.xport }
  | some _, some (.read, reg) => { s with xport := .abandoned s.devAddr reg.offset :: s.xport }
  | _, _ => s

/-- A block reset (R215, R217): the command in progress is abandoned without a response, the session is released, no Board
is constructed, and the other controller registers hold unspecified values. The device keeps its registers (R216). -/
def State.blockReset (s : State) (u : Unspecified) (inFlight : Option Word) : State :=
  { (s.abandon inFlight).closeSession with
    constructed := false, phase := .idle, rsp := none,
    stack := u.stack, busId := u.busId, devAddr := u.devAddr.setWidth 8,
    op := u.op, arg := u.arg, flag := u.flag, data := u.data, tmp := u.tmp }

/-- A device is power-cycled (R216, R39): its registers take their power-up values; the block does not notice. -/
def State.powerCycle (s : State) (bus dev : Byte) (outReset polReset cfgReset pins : Word) : State :=
  (((s.setDevice bus dev .input pins).setDevice bus dev .output outReset).setDevice bus dev
    .polarityInversion polReset).setDevice bus dev .configuration cfgReset

/-- The outside world makes its next move; with none to come nothing happens: the block waits (R70, R215). An answer that no
request is due for changes nothing (notes/assumptions/7.md). -/
def State.envStep (s : State) : Host.Outcome State Fault Refusal :=
  match s.inputs with
  | [] => .next s
  | .command w :: rest =>
    match s.cmd with
    | none => .next { s with cmd := some w, inputs := rest }
    | some _ => .refused .commandPortOccupied
  | .unit u :: rest => .next { s with unitPort := some u, inputs := rest }
  | .answer _ :: rest => .next { s with inputs := rest }
  | .masterRead _ _ _ :: rest => .next { s with inputs := rest }
  | .masterWrite bus dev reg v :: rest => .next ({ s with inputs := rest }.setDevice bus dev reg v)
  | .powerCycle bus dev o p c i :: rest => .next ({ s with inputs := rest }.powerCycle bus dev o p c i)
  | .pins bus dev v :: rest => .next ({ s with inputs := rest }.setDevice bus dev .input v)
  | .blockReset u inFlight :: rest => .next ({ s with inputs := rest }.blockReset u inFlight)

end Sys2Proof.Machine
end

