-- ==== Sys2Proof/Machine/Sequencer.lean ====
section
/-! DEFINITION. What the machine does next: evaluate a function unit, run the next step of the command in progress, accept
the command on the command port, or let the outside world move (R20, R24, R81, R83). -/

namespace Sys2Proof.Machine

/-- The command in progress, by PHASE (R24), with the operands as latched (R22); none in IDLE. -/
def State.inProgress (s : State) : Option Instr :=
  match s.phase with
  | .idle => none
  | .initRd | .initWr => some (.init s.stack.toNat s.busId)
  | .setRd | .setWr => some (.set (s.arg.toNat + 1) s.flag)
  | .setAllWr => some (.setAll s.data)
  | .getRd => some (.get (s.arg.toNat + 1))
  | .getAllRd => some .getAll

/-- What is due. -/
inductive Due where
  /-- Run one step of an instruction, on the state given. -/
  | run (i : Instr) (s : State)
  /-- The word on the command port is no command; the state given has taken it off the port. -/
  | illegal (s : State)
  /-- The outside world moves. -/
  | environment
  deriving DecidableEq, Repr

/-- What is due in a state. A function unit's input is evaluated at once, since the units are combinational. A command in progress
takes its next step when the transport answers. In IDLE the word on the command port is decoded (R81 step 1) and accepted. In
every other case the outside world moves. -/
def State.due (s : State) : Due :=
  match s.unitPort with
  | some u => .run u.instr { s with unitPort := none }
  | none =>
    match s.inProgress with
    | some i =>
      match s.inputs with
      | .answer _ :: _ => .run i s
      | _ => .environment
    | none =>
      match s.cmd with
      | none => .environment
      | some w =>
        match decodeCommand w with
        | .instr i => .run i { s with cmd := none }
        | .illegal _ => .illegal { s with cmd := none }

/-- A stimulus at the port it belongs to, with the block ready to take it: a command word needs an idle block with no session
and nothing at a function unit's input (R81). -/
def State.present (s : State) : Stimulus → State
  | .command w => { s with unitPort := none, cmd := some w, phase := .idle, sess := false }
  | .unit u => { s with unitPort := some u }

end Sys2Proof.Machine
end

