-- ==== Sys2Proof/Machine/Step.lean ====
section
/-! DEFINITION. One step of the machine, and the placing of an instruction where the next step fetches it. -/

namespace Sys2Proof.Machine

/-- One step: the instruction that is due, the answer ILLEGAL (R81 step 1, R192), or a move of the outside world. -/
def step (s : State) : Host.Outcome State Fault Refusal :=
  match s.due with
  | .run i t => exec i t
  | .illegal t => .next (t.raise .illegal)
  | .environment => s.envStep

/-- `s` with the instruction of those bits, numbered as spec/opcode_table.json numbers them, on the port the next step takes
it from. notes/assumptions/23.md. -/
def State.withFetchWord (s : State) (nbits w : Nat) : State := s.present (tableStimulus nbits w)

end Sys2Proof.Machine
end

