-- ==== Sys2Proof/Machine/Board.lean ====
section
/-! DEFINITION. What the device's registers do to the relays (R29, R32): an observable of the board, not state of the block. -/

namespace Sys2Proof.Machine

/-- The OUTPUT and CONFIGURATION bit of relay `r`, for r in 1..16 (R29, R31). -/
def relayLine (r : Nat) : Nat := 16 - r

/-- Whether relay `r` of a device is energised (R32): its OUTPUT bit when its line is an output (CONFIGURATION bit 0); none, that
is undetermined, when its line is an input (U6, D19; notes/assumptions/18.md). -/
def State.relay (s : State) (bus dev : Byte) (r : Nat) : Option Bool :=
  if (s.device bus dev .configuration).getLsbD (relayLine r) then none
  else some ((s.device bus dev .output).getLsbD (relayLine r))

end Sys2Proof.Machine
end

