-- ==== Sys2Proof/Safety.lean ====
section
/-! DEFINITION. What claims are stated in terms of: the invariant, runs without interference, the view that hides dead
registers. -/

namespace Sys2Proof.Machine

/-- The command a phase belongs to (R24). -/
def Phase.command : Phase → Option Op
  | .idle => none
  | .initRd | .initWr => some .init
  | .setRd | .setWr => some .set
  | .setAllWr => some .setAll
  | .getRd => some .get
  | .getAllRd => some .getAll

/-- The function units are combinational (R92): each output is that of the input beside it. -/
def Units.consistent (u : Units) : Prop :=
  u.r2ioOut = r2io u.r2ioIn ∧ u.io2rOut = io2r u.io2rIn ∧ u.devOut = devaddr u.devIn

/-- The invariant of the block (R22, R23, R24, R26, R40), of its ports and of the memory's canonical form. -/
structure State.Inv (s : State) : Prop where
  /-- The memory has its canonical form. -/
  mem : s.mem.wf = true
  /-- "SESS = 0 whenever PHASE = IDLE, and SESS = 1 in every other phase" (R26). -/
  session : s.sess = decide (s.phase ≠ .idle)
  /-- OP is the command the phase belongs to (R22, R24). -/
  op : ∀ o, s.phase.command = some o → s.op = o
  /-- "DEV_ADDR = 0x20 + (0x07 ^ STACK) whenever CONSTRUCTED = 1" (R40), and from INIT's acceptance on (R141). -/
  address : s.constructed = true ∨ s.phase ≠ .idle → devaddr s.stack.toNat = some s.devAddr
  /-- DEV_ADDR: "bit 7 always 0" (R22). -/
  bit7 : s.devAddr.getLsbD 7 = false
  /-- Only INIT runs before construction, and never after it (R148, R191). -/
  lifetime : ∀ o, s.phase.command = some o → (s.constructed = true ↔ o ≠ .init)
  /-- INIT writes only when the word read is nonzero (R142). -/
  nonzero : s.phase = .initWr → s.tmp ≠ 0#16
  /-- A command in progress has not been answered (R82). -/
  silent : s.phase ≠ .idle → s.rsp = none
  units : s.units.consistent

/-- A move of the device side: the transport's answers, the other masters, the device's power and pins. -/
def Input.deviceSide : Input → Bool
  | .answer _ | .masterRead _ _ _ | .masterWrite _ _ _ _ | .powerCycle _ _ _ _ _ _ | .pins _ _ _ => true
  | .command _ | .unit _ | .blockReset _ _ => false

/-- A move that is an answer of the transport. -/
def Input.isAnswer : Input → Bool
  | .answer _ => true
  | .command _ | .unit _ | .masterRead _ _ _ | .masterWrite _ _ _ _ | .powerCycle _ _ _ _ _ _ | .pins _ _ _
  | .blockReset _ _ => false

/-- The state with the registers that no rule reads there set to fixed values: in IDLE the latches (R25), and STACK, BUS_ID and
DEV_ADDR too while CONSTRUCTED = 0 (R23); inside a command the latches it does not use (R22). Two states with equal views
differ in nothing a rule gives a meaning to. -/
def State.live (s : State) : State :=
  { s with
    stack := if s.constructed ∨ s.phase ≠ .idle then s.stack else 0#3
    busId := if s.constructed ∨ s.phase ≠ .idle then s.busId else 0#8
    devAddr := if s.constructed ∨ s.phase ≠ .idle then s.devAddr else 0#8
    op := if s.phase ≠ .idle then s.op else .init
    arg := if s.phase = .setRd ∨ s.phase = .setWr ∨ s.phase = .getRd then s.arg else 0#4
    flag := if s.phase = .setRd ∨ s.phase = .setWr then s.flag else false
    data := if s.phase = .setAllWr then s.data else 0#16
    tmp := if s.phase = .setWr then s.tmp else 0#16 }

/-- A command word `w` stands on the port of an idle block and is the instruction `i`: the next step accepts it (R81). -/
structure State.ready (s : State) (w : PortWord) (i : Instr) : Prop where
  port : s.cmd = some w
  decodes : decodeCommand w = .instr i
  idle : s.phase = .idle
  closed : s.sess = false
  noUnit : s.unitPort = none

/-- A command is over with response `r` (R230): PHASE = IDLE, the session released, nothing left on the command port. -/
structure State.ended (t : State) (r : PortWord) : Prop where
  idle : t.phase = .idle
  closed : t.sess = false
  answered : t.rsp = some r
  taken : t.cmd = none

/-- What no command after INIT changes: the Board's registers (R23) and everything that belongs to the function units. -/
structure State.sameBoard (s t : State) : Prop where
  stack : t.stack = s.stack
  busId : t.busId = s.busId
  devAddr : t.devAddr = s.devAddr
  constructed : t.constructed = s.constructed
  units : t.units = s.units
  unitPort : t.unitPort = s.unitPort

/-- Every byte of the register space but the two of the word at `k` reads in `t` as in `s`. -/
def State.sameBytesBut (s t : State) (k : Nat) : Prop :=
  ∀ j, j ≠ k → j ≠ k + 1 → t.mem.readByte j = s.mem.readByte j

/-- A relation on states, on the outcomes of a step: both go on to related states, or both stop for the same reason. -/
def sameOutcome (R : State → State → Prop) : Host.Outcome State Fault Refusal → Host.Outcome State Fault Refusal → Prop
  | .next s, .next t => R s t
  | .fault f, .fault g => f = g
  | .refused r, .refused q => r = q
  | _, _ => False

end Sys2Proof.Machine
end

