-- ==== Sys2Proof/Certificates/Slice0/Obligations.lean ====
section
/-! DEFINITION. The statements for the provers, from the numbered rules of spec/. -/

open Sys2Proof Sys2Proof.Machine

/-! ## Encoding (R84 to R92) -/

/-- The examples of R86 and some rows of 95_test_vectors.md section 2.3. -/
def Obligations.DecodesTheWordsTheSpecGives : Prop :=
  decodeCommand 0x10010000#32 = .instr (.init 0 1#8) ∧ decodeCommand 0x1001FFFF#32 = .instr (.init (-1) 1#8) ∧
  decodeCommand 0x21000003#32 = .instr (.set 3 true) ∧ decodeCommand 0x20000001#32 = .instr (.set 1 false) ∧
  decodeCommand 0x3000A5A5#32 = .instr (.setAll 0xA5A5#16) ∧ decodeCommand 0x40000010#32 = .instr (.get 16) ∧
  decodeCommand 0x21000000#32 = .instr (.set 0 true) ∧ decodeCommand 0x21000011#32 = .instr (.set 17 true) ∧
  decodeCommand 0x21000000#32 = .instr (.set 0 true) ∧ decodeCommand 0x21000011#32 = .instr (.set 17 true) ∧
  decodeCommand 0x21000000#32 = .instr (.set 0 true) ∧ decodeCommand 0x21000011#32 = .instr (.set 17 true) ∧
  decodeCommand 0x21000000#32 = .instr (.set 0 true) ∧ decodeCommand 0x21000011#32 = .instr (.set 17 true) ∧
  decodeCommand 0x50000000#32 = .instr .getAll ∧ decodeCommand 0x22000001#32 = .illegal .reservedBits

/-- No operand of any well-formed instruction is lost between encoding and decoding (R84, R86, R92). -/
def Obligations.DecodingAnEncodedInstructionGivesItBack : Prop :=
  ∀ i : Instr, i.wf = true → decode (encode i) = .instr i

/-- Each stimulus has one meaning: what decodes is well formed and is encoded by nothing but itself (R86, R90). -/
def Obligations.EncodingADecodedStimulusGivesItBack : Prop :=
  ∀ (x : Stimulus) (i : Instr), decode x = .instr i → i.wf = true ∧ encode i = x

/-- R86: "A command word selects a command when `cmd & mask == match`", with the operand fields of the table. -/
def Obligations.CommandsAreSelectedByMaskAndMatch : Prop :=
  ∀ w : PortWord,
    (w &&& 0xFF000000#32 = 0x10000000#32 ↔
      decodeCommand w = .instr (.init (w.extractLsb' 0 16).toInt (w.extractLsb' 16 8))) ∧
    (w &&& 0xFEFF0000#32 = 0x20000000#32 ↔ decodeCommand w = .instr (.set (w.extractLsb' 0 16).toInt (w.getLsbD 24))) ∧
    (w &&& 0xFFFF0000#32 = 0x30000000#32 ↔ decodeCommand w = .instr (.setAll (w.extractLsb' 0 16))) ∧
    (w &&& 0xFFFF0000#32 = 0x40000000#32 ↔ decodeCommand w = .instr (.get (w.extractLsb' 0 16).toInt)) ∧
    (w &&& 0xFFFFFFFF#32 = 0x50000000#32 ↔ decodeCommand w = .instr .getAll)

/-- R89 and R192: which words are illegal, and how one is answered, whatever CONSTRUCTED is. -/
def Obligations.IllegalWordsAreAnsweredIllegal : Prop :=
  ∀ w : PortWord,
    ((∃ why, decodeCommand w = .illegal why) ↔
      (w.extractLsb' 28 4 = 0#4 ∨ 6#4 ≤ w.extractLsb' 28 4) ∨ w.extractLsb' 25 3 ≠ 0#3 ∨
      (w.getLsbD 24 = true ∧ w.extractLsb' 28 4 ≠ 2#4) ∨ (w.extractLsb' 16 8 ≠ 0#8 ∧ w.extractLsb' 28 4 ≠ 1#4) ∨
      (w.extractLsb' 0 16 ≠ 0#16 ∧ w.extractLsb' 28 4 = 5#4)) ∧
    ((∃ why, decodeCommand w = .illegal why) → ∀ s : State,
      s.phase = .idle → s.sess = false → s.unitPort = none → s.cmd = some w →
      step s = .next { s with cmd := none, rsp := some 0xF0000000#32 })

/-! ## The step (R24, R81, R83) -/

/-- A step of an idle block runs the command that the word on its port decodes to, having taken it off the port. -/
def Obligations.StepRunsTheCommandOnThePort : Prop :=
  ∀ (s : State) (w : PortWord) (i : Instr), s.ready w i → step s = exec i { s with cmd := none }

/-- When the transport answers, a step runs the next step of the command in progress, which PHASE names (R24). -/
def Obligations.StepResumesTheCommandInProgress : Prop :=
  ∀ (s : State) (a : Answer) (rest : List Input), s.unitPort = none → s.inputs = .answer a :: rest →
    (s.phase = .initRd ∨ s.phase = .initWr → step s = exec (.init s.stack.toNat s.busId) s) ∧
    (s.phase = .setRd ∨ s.phase = .setWr → step s = exec (.set (s.arg.toNat + 1) s.flag) s) ∧
    (s.phase = .setAllWr → step s = exec (.setAll s.data) s) ∧
    (s.phase = .getRd → step s = exec (.get (s.arg.toNat + 1)) s) ∧
    (s.phase = .getAllRd → step s = exec .getAll s)

/-- An input at a function unit is evaluated by the next step, in any phase. -/
def Obligations.StepEvaluatesTheFunctionUnit : Prop :=
  ∀ (s : State) (v : Word),
    (s.unitPort = some (.r2io v) → step s = exec (.r2io v) { s with unitPort := none }) ∧
    (s.unitPort = some (.io2r v) → step s = exec (.io2r v) { s with unitPort := none }) ∧
    (s.unitPort = some (.devaddr v) → step s = exec (.devaddr v.toInt) { s with unitPort := none })

/-- `withFetchWord` places an instruction so that the very next step runs it, from any state. -/
def Obligations.TheWordPlacedIsTheOneThatRuns : Prop :=
  ∀ (s : State) (w : Nat),
    (∀ i, decodeTableWord 32 w = some i →
      step (s.withFetchWord 32 w) = exec i { s with unitPort := none, cmd := none, phase := .idle, sess := false }) ∧
    (∀ i, decodeTableWord 16 w = some i → step (s.withFetchWord 16 w) = exec i { s with unitPort := none })

/-- R83: while a command is in progress the command port accepts nothing; the word on it stays there, and no command's
meaning but that of the one in progress can run. That the word stays there over a block reset too is the model's choice
(notes/assumptions/16.md), and so is the refusal commandInProgress (notes/assumptions/13.md). -/
def Obligations.BusyBlockAcceptsNoCommand : Prop :=
  ∀ s : State, s.phase ≠ .idle →
    (∀ (w : PortWord) (t : State), s.cmd = some w → step s = .next t → t.cmd = some w) ∧
    (∀ stack bus, s.phase.command ≠ some .init → exec (.init stack bus) s = .refused .commandInProgress) ∧
    (∀ relay on, s.phase.command ≠ some .set → exec (.set relay on) s = .refused .commandInProgress) ∧
    (∀ mask, s.phase.command ≠ some .setAll → exec (.setAll mask) s = .refused .commandInProgress) ∧
    (∀ relay, s.phase.command ≠ some .get → exec (.get relay) s = .refused .commandInProgress) ∧
    (s.phase.command ≠ some .getAll → exec .getAll s = .refused .commandInProgress)

/-- R70, R229: without an answer (and without a reset of the block) a command in progress stays where it is. -/
def Obligations.CommandWaitsForTheTransport : Prop :=
  ∀ s : State, s.phase ≠ .idle → (∀ a rest, s.inputs ≠ .answer a :: rest) →
    (∀ u f rest, s.inputs ≠ .blockReset u f :: rest) →
    (∀ t, step s = .next t → t.phase = s.phase ∧ t.sess = s.sess ∧ t.rsp = s.rsp ∧ t.xport = s.xport ∧
      t.op = s.op ∧ t.arg = s.arg ∧ t.flag = s.flag ∧ t.data = s.data ∧ t.tmp = s.tmp ∧ t.stack = s.stack ∧
      t.busId = s.busId ∧ t.devAddr = s.devAddr ∧ t.constructed = s.constructed) ∧
    (s.unitPort = none → s.inputs = [] → ∀ n, Host.Core.run core n s = .next s)

/-! ## The Bit Remapper (R110 to R117) -/

/-- R110: the table has 16 entries and entry i is `1 << (15 - i)`. -/
def Obligations.RemapTableIsDescendingPowersOfTwo : Prop :=
  remapTable.length = 16 ∧ ∀ i, i < 16 → remapTable[i]? = some (1#16 <<< (15 - i))

/-- R115: both units are the 16-bit bit reversal, which is its own inverse. -/
def Obligations.RemapReversesTheSixteenBits : Prop :=
  ∀ v : Word, (∀ j, j < 16 → (r2io v).getLsbD j = v.getLsbD (15 - j)) ∧ r2io v = io2r v ∧ r2io (r2io v) = v

/-- R113: mutual inverses over the full 16-bit space, hence bijections. -/
def Obligations.RemapUnitsAreMutualInverses : Prop :=
  (∀ x : Word, io2r (r2io x) = x) ∧ (∀ x : Word, r2io (io2r x) = x) ∧
  Function.Bijective r2io ∧ Function.Bijective io2r

/-- R114: relay r has logical mask `1 << (r - 1)` and physical mask `1 << (16 - r)`. -/
def Obligations.RemapOfOneRelay : Prop :=
  (∀ i, i < 16 → r2io (1#16 <<< i) = 1#16 <<< (15 - i)) ∧
  (∀ r, 1 ≤ r → r ≤ 16 → r2io (1#16 <<< (r - 1)) = 1#16 <<< (16 - r))

/-- The laws of R116 with OR, AND, XOR, NOT, and the two constant words. -/
def Obligations.RemapDistributesOverBitOperations : Prop :=
  ∀ a b : Word, r2io (a ||| b) = r2io a ||| r2io b ∧ r2io (a &&& b) = r2io a &&& r2io b ∧
    r2io (a ^^^ b) = r2io a ^^^ r2io b ∧ r2io (~~~a) = ~~~(r2io a) ∧
    (r2io a = 0x0000#16 ↔ a = 0x0000#16) ∧ (r2io a = 0xFFFF#16 ↔ a = 0xFFFF#16) ∧
    ((List.range 16).countP fun j => (r2io a).getLsbD j) = ((List.range 16).countP fun j => a.getLsbD j)

/-- R2IO and IO2R run in every state: the unit's output is the input with its bits reversed, and nothing else changes. -/
def Obligations.RemapUnitsAnswerTheReversedWord : Prop :=
  ∀ (v : Word) (s : State), ∃ w : Word, (∀ j, j < 16 → w.getLsbD j = v.getLsbD (15 - j)) ∧
    exec (.r2io v) s = .next { s with units := { s.units with r2ioIn := v, r2ioOut := w } } ∧
    exec (.io2r v) s = .next { s with units := { s.units with io2rIn := v, io2rOut := w } }

/-! ## Device Addressing (R130 to R133) -/

/-- R131: DEVADDR runs in every state, with its full table and InvalidArgument outside it, and nothing else changes. -/
def Obligations.DevaddrAnswersTheDeviceAddress : Prop :=
  (∀ (x : Int) (s : State), exec (.devaddr x) s = .next { s with units := { s.units with
    devIn := x,
    devOut := if 0 ≤ x ∧ x ≤ 7 then some (0x20#8 + (0x07#8 ^^^ BitVec.ofInt 8 x)) else none } }) ∧
  devaddr 0 = some 0x27#8 ∧ devaddr 1 = some 0x26#8 ∧ devaddr 2 = some 0x25#8 ∧ devaddr 3 = some 0x24#8 ∧
  devaddr 4 = some 0x23#8 ∧ devaddr 5 = some 0x22#8 ∧ devaddr 6 = some 0x21#8 ∧ devaddr 7 = some 0x20#8

/-- R132, R133, R58: stack levels 0..7 and addresses 0x20..0x27 correspond one to one. -/
def Obligations.StackLevelsAndAddressesCorrespond : Prop :=
  (∀ x a, devaddr x = some a → 0 ≤ x ∧ x ≤ 7 ∧ 0x20#8 ≤ a ∧ a ≤ 0x27#8 ∧ a.getLsbD 7 = false) ∧
  (∀ a : Byte, 0x20#8 ≤ a → a ≤ 0x27#8 → ∃ x, devaddr x = some a) ∧
  (∀ x y a, devaddr x = some a → devaddr y = some a → x = y)

/-! ## INIT (R140 to R148) -/

/-- R141: acceptance of INIT, and InvalidArgument with nothing else changed. -/
def Obligations.InitAcceptance : Prop :=
  ∀ (stack : Int) (bus : Byte) (s : State), s.phase = .idle → s.constructed = false →
    (0 ≤ stack → stack ≤ 7 → exec (.init stack bus) s = .next { s with
      stack := BitVec.ofInt 3 stack, busId := bus, devAddr := 0x20#8 + (0x07#8 ^^^ BitVec.ofInt 8 stack),
      op := .init, sess := true, xport := .opened bus :: s.xport, phase := .initRd, rsp := none }) ∧
    (stack < 0 ∨ 7 < stack → s.sess = false →
      exec (.init stack bus) s = .next { s with rsp := some 0x10000000#32 })

/-- R142: the read step of INIT. -/
def Obligations.InitReadStep : Prop :=
  ∀ (stack : Int) (bus : Byte) (s : State) (rest : List Input), s.phase = .initRd → s.sess = true →
    (∀ c left, s.inputs = .answer (.err c left) :: rest → exec (.init stack bus) s = .next { s with
      inputs := rest, sess := false, xport := .closed :: .readErr s.devAddr 0x06#8 c :: s.xport,
      rsp := some (response 0x2#4 c.code 0x0000#16), phase := .idle }) ∧
    (s.inputs = .answer .ok :: rest → ∀ w, s.device s.busId s.devAddr .configuration = w →
      (w = 0x0000#16 → exec (.init stack bus) s = .next { s with
        inputs := rest, sess := false, xport := .closed :: .readOk s.devAddr 0x06#8 w :: s.xport,
        constructed := true, rsp := some 0x00000000#32, phase := .idle }) ∧
      (w ≠ 0x0000#16 → exec (.init stack bus) s = .next { s with
        inputs := rest, xport := .readOk s.devAddr 0x06#8 w :: s.xport, tmp := w, phase := .initWr }))

/-- R143: the write step of INIT writes 0x0000 to CONFIGURATION, whatever was read. -/
def Obligations.InitWriteStep : Prop :=
  ∀ (stack : Int) (bus : Byte) (s : State) (rest : List Input), s.phase = .initWr → s.sess = true →
    (∀ c left, s.inputs = .answer (.err c left) :: rest → exec (.init stack bus) s = .next { s with
      inputs := rest, sess := false, xport := .closed :: .writeErr s.devAddr 0x06#8 0x0000#16 c :: s.xport,
      mem := s.mem.writeWord (regAddr s.busId s.devAddr .configuration) left,
      rsp := some (response 0x2#4 c.code 0x0000#16), phase := .idle }) ∧
    (s.inputs = .answer .ok :: rest → exec (.init stack bus) s = .next { s with
      inputs := rest, sess := false, xport := .closed :: .writeOk s.devAddr 0x06#8 0x0000#16 :: s.xport,
      mem := s.mem.writeWord (regAddr s.busId s.devAddr .configuration) 0x0000#16,
      constructed := true, rsp := some 0x00000000#32, phase := .idle })

/-- R145, row by row: the outcomes of a whole INIT without interference. -/
def Obligations.InitOutcomes : Prop :=
  ∀ (s : State) (word : PortWord) (stack : Int) (bus : Byte) (rest : List Input),
    s.ready word (.init stack bus) → s.constructed = false →
    (stack < 0 ∨ 7 < stack → Host.Core.run core 1 s = .next { s with cmd := none, rsp := some 0x10000000#32 }) ∧
    (∀ a, devaddr stack = some a → ∀ cfg, s.device bus a .configuration = cfg →
      (∀ c left, s.inputs = .answer (.err c left) :: rest → ∃ t, Host.Core.run core 2 s = .next t ∧
        t.ended (response 0x2#4 c.code 0x0000#16) ∧ t.constructed = false ∧ t.mem = s.mem ∧ t.inputs = rest ∧
        t.xport = [.closed, .readErr a 0x06#8 c, .opened bus] ++ s.xport) ∧
      (s.inputs = .answer .ok :: rest → cfg = 0x0000#16 → ∃ t, Host.Core.run core 2 s = .next t ∧
        t.ended 0x00000000#32 ∧ t.constructed = true ∧ t.mem = s.mem ∧ t.inputs = rest ∧
        t.stack = BitVec.ofInt 3 stack ∧ t.busId = bus ∧ t.devAddr = a ∧
        t.xport = [.closed, .readOk a 0x06#8 0x0000#16, .opened bus] ++ s.xport) ∧
      (s.inputs = .answer .ok :: .answer .ok :: rest → cfg ≠ 0x0000#16 → ∃ t, Host.Core.run core 3 s = .next t ∧
        t.ended 0x00000000#32 ∧ t.constructed = true ∧ t.device bus a .configuration = 0x0000#16 ∧
        s.sameBytesBut t (regAddr bus a .configuration) ∧ t.inputs = rest ∧
        t.stack = BitVec.ofInt 3 stack ∧ t.busId = bus ∧ t.devAddr = a ∧
        t.xport = [.closed, .writeOk a 0x06#8 0x0000#16, .readOk a 0x06#8 cfg, .opened bus] ++ s.xport) ∧
      (∀ c left, s.inputs = .answer .ok :: .answer (.err c left) :: rest → cfg ≠ 0x0000#16 →
        ∃ t, Host.Core.run core 3 s = .next t ∧
        t.ended (response 0x2#4 c.code 0x0000#16) ∧ t.constructed = false ∧ t.device bus a .configuration = left ∧
        s.sameBytesBut t (regAddr bus a .configuration) ∧ t.inputs = rest ∧
        t.xport = [.closed, .writeErr a 0x06#8 0x0000#16 c, .readOk a 0x06#8 cfg, .opened bus] ++ s.xport))

/-! ## SET and SET_ALL (R150 to R163) -/

/-- R151: acceptance of SET, and InvalidArgument with nothing else changed. -/
def Obligations.SetAcceptance : Prop :=
  ∀ (relay : Int) (on : Bool) (s : State), s.phase = .idle → s.constructed = true →
    (1 ≤ relay → relay ≤ 16 → exec (.set relay on) s = .next { s with
      op := .set, arg := BitVec.ofInt 4 (relay - 1), flag := on, sess := true,
      xport := .opened s.busId :: s.xport, phase := .setRd, rsp := none }) ∧
    (relay < 1 ∨ 16 < relay → s.sess = false →
      exec (.set relay on) s = .next { s with rsp := some 0x10000000#32 })

/-- R152: the read step of SET. -/
def Obligations.SetReadStep : Prop :=
  ∀ (relay : Int) (on : Bool) (s : State) (rest : List Input), s.phase = .setRd → s.sess = true →
    (∀ c left, s.inputs = .answer (.err c left) :: rest → exec (.set relay on) s = .next { s with
      inputs := rest, sess := false, xport := .closed :: .readErr s.devAddr 0x02#8 c :: s.xport,
      rsp := some (response 0x3#4 c.code 0x0000#16), phase := .idle }) ∧
    (s.inputs = .answer .ok :: rest → ∀ w, s.device s.busId s.devAddr .output = w →
      exec (.set relay on) s = .next { s with
        inputs := rest, xport := .readOk s.devAddr 0x02#8 w :: s.xport, tmp := w, phase := .setWr })

/-- R153 and R154: the write step of SET stores the word read with exactly bit `16 - relay` forced (ARG is `relay - 1`). -/
def Obligations.SetWriteStep : Prop :=
  ∀ (relay : Int) (on : Bool) (s : State) (rest : List Input), s.phase = .setWr → s.sess = true →
    ∀ w', w' = (if s.flag then s.tmp ||| 1#16 <<< (15 - s.arg.toNat) else s.tmp &&& ~~~(1#16 <<< (15 - s.arg.toNat))) →
    (∀ c left, s.inputs = .answer (.err c left) :: rest → exec (.set relay on) s = .next { s with
      inputs := rest, sess := false, xport := .closed :: .writeErr s.devAddr 0x02#8 w' c :: s.xport,
      mem := s.mem.writeWord (regAddr s.busId s.devAddr .output) left,
      rsp := some (response 0x3#4 c.code 0x0000#16), phase := .idle }) ∧
    (s.inputs = .answer .ok :: rest → exec (.set relay on) s = .next { s with
      inputs := rest, sess := false, xport := .closed :: .writeOk s.devAddr 0x02#8 w' :: s.xport,
      mem := s.mem.writeWord (regAddr s.busId s.devAddr .output) w',
      rsp := some 0x00000000#32, phase := .idle })

/-- R154: the logical computation of R153 and its physical form agree for every word, relay and operand. -/
def Obligations.SetWordInThePhysicalDomain : Prop :=
  ∀ (w : Word) (r : Nat) (on : Bool), 1 ≤ r → r ≤ 16 →
    setWord w (relayBit r) on = (if on then w ||| 1#16 <<< (16 - r) else w &&& ~~~(1#16 <<< (16 - r))) ∧
    (setWord w (relayBit r) on).getLsbD (16 - r) = on ∧
    (∀ b, b < 16 → b ≠ 16 - r → (setWord w (relayBit r) on).getLsbD b = w.getLsbD b)

/-- R156, row by row: the outcomes of a whole SET without interference. -/
def Obligations.SetOutcomes : Prop :=
  ∀ (s : State) (word : PortWord) (relay : Int) (on : Bool) (rest : List Input),
    s.ready word (.set relay on) → s.constructed = true →
    (relay < 1 ∨ 16 < relay → Host.Core.run core 1 s = .next { s with cmd := none, rsp := some 0x10000000#32 }) ∧
    (1 ≤ relay → relay ≤ 16 → ∀ w w', s.device s.busId s.devAddr .output = w →
      w' = (if on then w ||| 1#16 <<< (16 - relay.toNat) else w &&& ~~~(1#16 <<< (16 - relay.toNat))) →
      (∀ c left, s.inputs = .answer (.err c left) :: rest → ∃ t, Host.Core.run core 2 s = .next t ∧
        t.ended (response 0x3#4 c.code 0x0000#16) ∧ s.sameBoard t ∧ t.mem = s.mem ∧ t.inputs = rest ∧
        t.xport = [.closed, .readErr s.devAddr 0x02#8 c, .opened s.busId] ++ s.xport) ∧
      (s.inputs = .answer .ok :: .answer .ok :: rest → ∃ t, Host.Core.run core 3 s = .next t ∧
        t.ended 0x00000000#32 ∧ s.sameBoard t ∧ t.device s.busId s.devAddr .output = w' ∧
        s.sameBytesBut t (regAddr s.busId s.devAddr .output) ∧ t.inputs = rest ∧
        t.xport = [.closed, .writeOk s.devAddr 0x02#8 w', .readOk s.devAddr 0x02#8 w, .opened s.busId] ++ s.xport) ∧
      (∀ c left, s.inputs = .answer .ok :: .answer (.err c left) :: rest → ∃ t, Host.Core.run core 3 s = .next t ∧
        t.ended (response 0x3#4 c.code 0x0000#16) ∧ s.sameBoard t ∧ t.device s.busId s.devAddr .output = left ∧
        s.sameBytesBut t (regAddr s.busId s.devAddr .output) ∧ t.inputs = rest ∧
        t.xport = [.closed, .writeErr s.devAddr 0x02#8 w' c, .readOk s.devAddr 0x02#8 w, .opened s.busId] ++ s.xport))

/-- R157, with the same for false: SET then GET of the same relay, without interference, answers what was set. -/
def Obligations.SetThenGetAnswersWhatWasSet : Prop :=
  ∀ (s : State) (word getWord : PortWord) (relay : Int) (on : Bool) (rest : List Input),
    s.ready word (.set relay on) → s.constructed = true → 1 ≤ relay → relay ≤ 16 →
    decodeCommand getWord = .instr (.get relay) →
    s.inputs = .answer .ok :: .answer .ok :: .command getWord :: .answer .ok :: rest →
    ∃ t, Host.Core.run core 6 s = .next t ∧ t.ended (if on then 0x00000001#32 else 0x00000000#32) ∧ t.inputs = rest

/-- R158, R222: a write another master makes to OUTPUT between SET's read and SET's write is lost. -/
def Obligations.SetLosesAnUpdateMadeInBetween : Prop :=
  ∀ (s : State) (word : PortWord) (relay : Int) (on : Bool) (v : Word) (rest : List Input),
    s.ready word (.set relay on) → s.constructed = true → 1 ≤ relay → relay ≤ 16 →
    s.inputs = .answer .ok :: .masterWrite s.busId s.devAddr .output v :: .answer .ok :: rest →
    ∃ t₂ t₃ t, Host.Core.run core 2 s = .next t₂ ∧ t₂.phase = .setWr ∧
      Host.Core.run core 3 s = .next t₃ ∧ t₃.device s.busId s.devAddr .output = v ∧
      Host.Core.run core 4 s = .next t ∧ t.ended 0x00000000#32 ∧
      (∀ b, b < 16 → (t.device s.busId s.devAddr .output).getLsbD b =
        if (b : Int) = 16 - relay then on else (s.device s.busId s.devAddr .output).getLsbD b)

/-- R160: acceptance of SET_ALL; every mask is legal. -/
def Obligations.SetAllAcceptance : Prop :=
  ∀ (mask : Word) (s : State), s.phase = .idle → s.constructed = true →
    exec (.setAll mask) s = .next { s with
      op := .setAll, data := mask, sess := true, xport := .opened s.busId :: s.xport, phase := .setAllWr, rsp := none }

/-- R161: the write step of SET_ALL, a blind write of the reversed mask. -/
def Obligations.SetAllWriteStep : Prop :=
  ∀ (mask : Word) (s : State) (rest : List Input), s.phase = .setAllWr → s.sess = true →
    (∀ c left, s.inputs = .answer (.err c left) :: rest → exec (.setAll mask) s = .next { s with
      inputs := rest, sess := false, xport := .closed :: .writeErr s.devAddr 0x02#8 (r2io s.data) c :: s.xport,
      mem := s.mem.writeWord (regAddr s.busId s.devAddr .output) left,
      rsp := some (response 0x3#4 c.code 0x0000#16), phase := .idle }) ∧
    (s.inputs = .answer .ok :: rest → exec (.setAll mask) s = .next { s with
      inputs := rest, sess := false, xport := .closed :: .writeOk s.devAddr 0x02#8 (r2io s.data) :: s.xport,
      mem := s.mem.writeWord (regAddr s.busId s.devAddr .output) (r2io s.data),
      rsp := some 0x00000000#32, phase := .idle })

/-- R162: the outcomes of a whole SET_ALL, and `SET_ALL m` then `GET_ALL` answers m. -/
def Obligations.SetAllOutcomes : Prop :=
  ∀ (s : State) (word : PortWord) (mask : Word) (rest : List Input),
    s.ready word (.setAll mask) → s.constructed = true →
    (s.inputs = .answer .ok :: rest → ∃ t, Host.Core.run core 2 s = .next t ∧
      t.ended 0x00000000#32 ∧ s.sameBoard t ∧ t.device s.busId s.devAddr .output = r2io mask ∧
      s.sameBytesBut t (regAddr s.busId s.devAddr .output) ∧ t.inputs = rest ∧
      t.xport = [.closed, .writeOk s.devAddr 0x02#8 (r2io mask), .opened s.busId] ++ s.xport) ∧
    (∀ c left, s.inputs = .answer (.err c left) :: rest → ∃ t, Host.Core.run core 2 s = .next t ∧
      t.ended (response 0x3#4 c.code 0x0000#16) ∧ s.sameBoard t ∧ t.device s.busId s.devAddr .output = left ∧
      s.sameBytesBut t (regAddr s.busId s.devAddr .output) ∧ t.inputs = rest ∧
      t.xport = [.closed, .writeErr s.devAddr 0x02#8 (r2io mask) c, .opened s.busId] ++ s.xport) ∧
    (∀ getAllWord, decodeCommand getAllWord = .instr .getAll →
      s.inputs = .answer .ok :: .command getAllWord :: .answer .ok :: rest →
      ∃ t, Host.Core.run core 5 s = .next t ∧ t.ended (mask.setWidth 32) ∧ t.inputs = rest)

/-! ## GET and GET_ALL (R170 to R179) -/

/-- R171: acceptance of GET, and InvalidArgument with nothing else changed. -/
def Obligations.GetAcceptance : Prop :=
  ∀ (relay : Int) (s : State), s.phase = .idle → s.constructed = true →
    (1 ≤ relay → relay ≤ 16 → exec (.get relay) s = .next { s with
      op := .get, arg := BitVec.ofInt 4 (relay - 1), sess := true,
      xport := .opened s.busId :: s.xport, phase := .getRd, rsp := none }) ∧
    (relay < 1 ∨ 16 < relay → s.sess = false →
      exec (.get relay) s = .next { s with rsp := some 0x10000000#32 })

/-- R172, R173: the read step of GET answers bit `16 - relay` of OUTPUT (ARG is `relay - 1`). -/
def Obligations.GetReadStep : Prop :=
  ∀ (relay : Int) (s : State) (rest : List Input), s.phase = .getRd → s.sess = true →
    (∀ c left, s.inputs = .answer (.err c left) :: rest → exec (.get relay) s = .next { s with
      inputs := rest, sess := false, xport := .closed :: .readErr s.devAddr 0x02#8 c :: s.xport,
      rsp := some (response 0x3#4 c.code 0x0000#16), phase := .idle }) ∧
    (s.inputs = .answer .ok :: rest → ∀ w, s.device s.busId s.devAddr .output = w →
      exec (.get relay) s = .next { s with
        inputs := rest, sess := false, xport := .closed :: .readOk s.devAddr 0x02#8 w :: s.xport,
        rsp := some (if w.getLsbD (15 - s.arg.toNat) then 0x00000001#32 else 0x00000000#32), phase := .idle })

/-- R176: acceptance of GET_ALL. -/
def Obligations.GetAllAcceptance : Prop :=
  ∀ s : State, s.phase = .idle → s.constructed = true → exec .getAll s = .next { s with
    op := .getAll, sess := true, xport := .opened s.busId :: s.xport, phase := .getAllRd, rsp := none }

/-- R177: the read step of GET_ALL answers OUTPUT in logical order. -/
def Obligations.GetAllReadStep : Prop :=
  ∀ (s : State) (rest : List Input), s.phase = .getAllRd → s.sess = true →
    (∀ c left, s.inputs = .answer (.err c left) :: rest → exec .getAll s = .next { s with
      inputs := rest, sess := false, xport := .closed :: .readErr s.devAddr 0x02#8 c :: s.xport,
      rsp := some (response 0x3#4 c.code 0x0000#16), phase := .idle }) ∧
    (s.inputs = .answer .ok :: rest → ∀ w, s.device s.busId s.devAddr .output = w →
      exec .getAll s = .next { s with
        inputs := rest, sess := false, xport := .closed :: .readOk s.devAddr 0x02#8 w :: s.xport,
        rsp := some ((io2r w).setWidth 32), phase := .idle })

/-- R174, row by row: the outcomes of a whole GET. -/
def Obligations.GetOutcomes : Prop :=
  ∀ (s : State) (word : PortWord) (relay : Int) (rest : List Input),
    s.ready word (.get relay) → s.constructed = true →
    (relay < 1 ∨ 16 < relay → Host.Core.run core 1 s = .next { s with cmd := none, rsp := some 0x10000000#32 }) ∧
    (1 ≤ relay → relay ≤ 16 → ∀ w, s.device s.busId s.devAddr .output = w →
      (∀ c left, s.inputs = .answer (.err c left) :: rest → ∃ t, Host.Core.run core 2 s = .next t ∧
        t.ended (response 0x3#4 c.code 0x0000#16) ∧ s.sameBoard t ∧ t.mem = s.mem ∧ t.inputs = rest ∧
        t.xport = [.closed, .readErr s.devAddr 0x02#8 c, .opened s.busId] ++ s.xport) ∧
      (s.inputs = .answer .ok :: rest → ∃ t, Host.Core.run core 2 s = .next t ∧
        t.ended (if w.getLsbD (16 - relay.toNat) then 0x00000001#32 else 0x00000000#32) ∧
        s.sameBoard t ∧ t.mem = s.mem ∧ t.inputs = rest ∧
        t.xport = [.closed, .readOk s.devAddr 0x02#8 w, .opened s.busId] ++ s.xport))

/-- R178: the outcomes of a whole GET_ALL, and a GET r run on the same device instead answers bit `r - 1` of the word GET_ALL
answers. -/
def Obligations.GetAllOutcomes : Prop :=
  ∀ (s : State) (word : PortWord) (rest : List Input), s.ready word .getAll → s.constructed = true →
    ∀ w, s.device s.busId s.devAddr .output = w →
      (∀ c left, s.inputs = .answer (.err c left) :: rest → ∃ t, Host.Core.run core 2 s = .next t ∧
        t.ended (response 0x3#4 c.code 0x0000#16) ∧ s.sameBoard t ∧ t.mem = s.mem ∧ t.inputs = rest ∧
        t.xport = [.closed, .readErr s.devAddr 0x02#8 c, .opened s.busId] ++ s.xport) ∧
      (s.inputs = .answer .ok :: rest → ∃ t l, Host.Core.run core 2 s = .next t ∧ l = io2r w ∧
        (∀ r, 1 ≤ r → r ≤ 16 → l.getLsbD (r - 1) = w.getLsbD (16 - r)) ∧
        t.ended (l.setWidth 32) ∧ s.sameBoard t ∧ t.mem = s.mem ∧ t.inputs = rest ∧
        t.xport = [.closed, .readOk s.devAddr 0x02#8 w, .opened s.busId] ++ s.xport ∧
        ∀ (r : Nat) (getWord : PortWord), 1 ≤ r → r ≤ 16 → decodeCommand getWord = .instr (.get r) →
          ∃ t', Host.Core.run core 2 { s with cmd := some getWord } = .next t' ∧
            t'.ended (if l.getLsbD (r - 1) then 0x00000001#32 else 0x00000000#32))

/-- R179: the read commands write nothing on the device and leave every register that survives a command; what they add to the
transport port is no write. -/
def Obligations.ReadCommandsWriteNothing : Prop :=
  ∀ (s t : State), (exec .getAll s = .next t ∨ ∃ relay, exec (.get relay) s = .next t) →
    t.mem = s.mem ∧ s.sameBoard t ∧ t.cmd = s.cmd ∧ t.data = s.data ∧ t.flag = s.flag ∧ t.tmp = s.tmp ∧
    ∃ new, t.xport = new ++ s.xport ∧
      ∀ x ∈ new, (∀ d o v, x ≠ .writeOk d o v) ∧ (∀ d o v c, x ≠ .writeErr d o v c)

/-! ## Errors (R185 to R198) -/

/-- R191, R148, R194: before construction the four commands are refused and after it INIT is, whatever their operands: "no
transition and no response". -/
def Obligations.CommandsOutsideTheirLifetimeAreRefused : Prop :=
  ∀ s : State, s.phase = .idle →
    (s.constructed = false →
      (∀ relay on, exec (.set relay on) s = .refused .notConstructed) ∧
      (∀ mask, exec (.setAll mask) s = .refused .notConstructed) ∧
      (∀ relay, exec (.get relay) s = .refused .notConstructed) ∧
      exec .getAll s = .refused .notConstructed) ∧
    (s.constructed = true → ∀ stack bus, exec (.init stack bus) s = .refused .alreadyConstructed)

/-- R87: the fields of the response word, and the cause and data of each exception. -/
def Obligations.ResponseWordFields : Prop :=
  (∀ (st : BitVec 4) (c : Byte) (d : Word), (response st c d).extractLsb' 28 4 = st ∧
    (response st c d).extractLsb' 24 4 = 0#4 ∧ (response st c d).extractLsb' 16 8 = c ∧
    (response st c d).extractLsb' 0 16 = d) ∧
  Exc.illegal.response = 0xF0000000#32 ∧ Exc.invalidArgument.response = 0x10000000#32 ∧
  ∀ c : Cause, (Exc.initializationError c).response = response 0x2#4 c.code 0#16 ∧
    (Exc.operationError c).response = response 0x3#4 c.code 0#16

/-- R54: the cause codes: the three named ones, none 0x00, every other code some other cause's, no two alike. -/
def Obligations.CauseCodes : Prop :=
  Cause.nack.code = 0x01#8 ∧ Cause.timeout.code = 0x02#8 ∧ Cause.arbitrationLoss.code = 0x03#8 ∧
  (∀ c : Cause, c.code ≠ 0x00#8) ∧ (∀ b : Byte, b ≠ 0x00#8 → ∃ c : Cause, c.code = b) ∧
  (∀ c d : Cause, c.code = d.code → c = d)

/-- R190: taking an exception, with and without a session held. -/
def Obligations.ExceptionEntry : Prop :=
  ∀ (s : State) (e : Exc) (word : PortWord),
    word = e.status.setWidth 32 <<< 28 ||| e.info.setWidth 32 <<< 16 →
    (s.sess = true → s.raise e = { s with
      sess := false, xport := .closed :: s.xport, rsp := some word, phase := .idle }) ∧
    (s.sess = false → s.raise e = { s with rsp := some word, phase := .idle })

/-- R82: a command in progress is answered in exactly the step that returns PHASE to IDLE, and a word taken from the port is
answered in that same step unless it starts a command (a block reset, which answers nothing, aside). -/
def Obligations.OneResponsePerCommand : Prop :=
  ∀ s t : State, s.Inv → s.unitPort = none → step s = .next t →
    (s.phase ≠ .idle → (∀ u f rest, s.inputs ≠ .blockReset u f :: rest) → (t.phase = .idle ↔ t.rsp.isSome = true)) ∧
    (s.phase = .idle → s.cmd.isSome = true → (t.phase = .idle ↔ t.rsp.isSome = true))

/-! ## The bus register space (R50 to R70) -/

/-- R55 on the memory: a word written is the word read there, and every other byte reads as before. -/
def Obligations.WordWrittenIsWordRead : Prop :=
  ∀ (m : Memory) (k : Nat) (v : Word), (m.writeWord k v).readWord k = v ∧
    (∀ j, j ≠ k → j ≠ k + 1 → (m.writeWord k v).readByte j = m.readByte j)

/-- R28, R36, R58: two device registers share no byte unless bus, device address and register agree. -/
def Obligations.DeviceRegistersAreApart : Prop :=
  ∀ (b₁ b₂ d₁ d₂ : Byte) (r₁ r₂ : Reg), (b₁, d₁, r₁) ≠ (b₂, d₂, r₂) → ∀ i j, i < 2 → j < 2 →
    regAddr b₁ d₁ r₁ + i ≠ regAddr b₂ d₂ r₂ + j

/-- The memory frame of every instruction: no byte changes outside the word that the write phase in progress addresses, and none
at all in any other phase (R52, R56, R57). -/
def Obligations.InstructionsStoreOnlyToTheAddressedRegister : Prop :=
  ∀ (i : Instr) (s t : State), exec i s = .next t →
    (s.phase ≠ .initWr → s.phase ≠ .setWr → s.phase ≠ .setAllWr → t.mem = s.mem) ∧
    (s.phase = .initWr → s.sameBytesBut t (regAddr s.busId s.devAddr .configuration)) ∧
    (s.phase = .setWr ∨ s.phase = .setAllWr → s.sameBytesBut t (regAddr s.busId s.devAddr .output))

/-- R56: a failed write leaves in the addressed register any value, the one the answer carries, and nothing else changes on the
device; the response is the exception's. -/
def Obligations.FailedWriteLeavesAnyValue : Prop :=
  ∀ (s : State) (reg : Reg) (c : Cause) (left : Word) (rest : List Input), s.unitPort = none →
    s.inputs = .answer (.err c left) :: rest →
    (s.phase = .initWr ∧ reg = .configuration ∨ s.phase = .setWr ∧ reg = .output ∨ s.phase = .setAllWr ∧ reg = .output) →
    ∃ t, step s = .next t ∧ t.phase = .idle ∧ t.sess = false ∧
      t.device s.busId s.devAddr reg = left ∧ s.sameBytesBut t (regAddr s.busId s.devAddr reg) ∧
      t.rsp = some (response (if reg = .configuration then 0x2#4 else 0x3#4) c.code 0x0000#16)

/-- R57, R24: each step adds at most one bus transaction, and every one goes to the device at `x[DEV_ADDR]` in 0x20..0x27, at
offset 0x02 or 0x06; what is written to 0x06 is 0x0000. The record of a transaction that a block reset abandoned is the model's
(notes/assumptions/16.md). -/
def Obligations.BlockReachesOnlyItsTwoRegisters : Prop :=
  ∀ s t : State, s.Inv → step s = .next t → ∃ new, t.xport = new ++ s.xport ∧
    (new.filter fun x => x != .closed && x != .opened t.busId).length ≤ 1 ∧
    ∀ x ∈ new, x = .closed ∨ x = .opened t.busId ∨
      0x20#8 ≤ s.devAddr ∧ s.devAddr ≤ 0x27#8 ∧
        ((∃ w c, x = .readOk s.devAddr 0x02#8 w ∨ x = .readErr s.devAddr 0x02#8 c ∨
          x = .writeOk s.devAddr 0x02#8 w ∨ x = .writeErr s.devAddr 0x02#8 w c ∨ x = .abandoned s.devAddr 0x02#8) ∨
         (∃ w c, x = .readOk s.devAddr 0x06#8 w ∨ x = .readErr s.devAddr 0x06#8 c ∨
          x = .writeOk s.devAddr 0x06#8 0#16 ∨ x = .writeErr s.devAddr 0x06#8 0#16 c ∨ x = .abandoned s.devAddr 0x06#8))

/-- R23: STACK, BUS_ID and DEV_ADDR change only when an INIT with a legal stack level is accepted (a block reset aside), and
CONSTRUCTED never goes back to 0 without a reset. -/
def Obligations.BoardIsImmutableAfterConstruction : Prop :=
  ∀ s t : State, s.Inv → (∀ u f rest, s.inputs ≠ .blockReset u f :: rest) → step s = .next t →
    (s.constructed = true → t.constructed = true) ∧
    ((t.stack, t.busId, t.devAddr) ≠ (s.stack, s.busId, s.devAddr) →
      s.constructed = false ∧ s.phase = .idle ∧ t.phase = .initRd ∧ devaddr t.stack.toNat = some t.devAddr)

/-! ## Reset, other masters, power (R20, R39, R62, R215 to R224) -/

/-- R38: what reset leaves, of the values the spec gives. -/
def Obligations.ResetValues : Prop :=
  State.reset.constructed = false ∧ State.reset.phase = .idle ∧ State.reset.sess = false

/-- R215, R216, R217: a reset of the block completes in every phase; it abandons the command in progress without a response and
leaves the device, but for the register of a write in flight, which holds any value; with no transaction in flight nothing on
the device changes. The eight registers the rules leave unspecified hold the values that come with the reset, which is the
model's form of 'unspecified' (notes/assumptions/16.md). -/
def Obligations.BlockResetAbandonsTheCommand : Prop :=
  ∀ (s : State) (u : Unspecified) (f : Option Word) (rest : List Input),
    s.unitPort = none → (s.phase = .idle → s.cmd = none) → s.inputs = .blockReset u f :: rest →
    ∃ t, step s = .next t ∧
    t.constructed = false ∧ t.phase = .idle ∧ t.sess = false ∧ t.rsp = none ∧ t.cmd = s.cmd ∧ t.inputs = rest ∧
    t.units = s.units ∧ t.stack = u.stack ∧ t.busId = u.busId ∧ t.devAddr = u.devAddr.setWidth 8 ∧
    t.op = u.op ∧ t.arg = u.arg ∧ t.flag = u.flag ∧ t.data = u.data ∧ t.tmp = u.tmp ∧
    (f = none → t.mem = s.mem) ∧
    (s.phase ≠ .initWr → s.phase ≠ .setWr → s.phase ≠ .setAllWr → t.mem = s.mem) ∧
    (∀ left, f = some left → s.phase = .initWr →
      t.device s.busId s.devAddr .configuration = left ∧ s.sameBytesBut t (regAddr s.busId s.devAddr .configuration)) ∧
    (∀ left, f = some left → s.phase = .setWr ∨ s.phase = .setAllWr →
      t.device s.busId s.devAddr .output = left ∧ s.sameBytesBut t (regAddr s.busId s.devAddr .output))

/-- R20, R62: another master's transaction changes the register it writes and nothing of the block, in any phase. That its write
to INPUT leaves the value it carries is the model's choice, since R35 leaves open whether INPUT accepts writes
(notes/assumptions/14.md). -/
def Obligations.OtherMastersReachOnlyTheDevice : Prop :=
  ∀ (s : State) (bus dev : Byte) (reg : Reg) (rest : List Input), s.unitPort = none → (s.phase = .idle → s.cmd = none) →
    (s.inputs = .masterRead bus dev reg :: rest → step s = .next { s with inputs := rest }) ∧
    (∀ v, s.inputs = .masterWrite bus dev reg v :: rest → ∃ t, step s = .next t ∧
      t = { s with inputs := rest, mem := t.mem } ∧ t.device bus dev reg = v ∧
      s.sameBytesBut t (regAddr bus dev reg))

/-- R216: a power cycle of a device gives its four registers their power-up values and no byte outside them another value, and
the block does not notice. -/
def Obligations.PowerCycleIsNotNoticed : Prop :=
  ∀ (s : State) (bus dev : Byte) (o p c i : Word) (rest : List Input), s.unitPort = none →
    (s.phase = .idle → s.cmd = none) → s.inputs = .powerCycle bus dev o p c i :: rest →
    ∃ t, step s = .next t ∧ t = { s with inputs := rest, mem := t.mem } ∧
      t.device bus dev .output = o ∧ t.device bus dev .polarityInversion = p ∧ t.device bus dev .configuration = c ∧
      t.device bus dev .input = i ∧
      ∀ j, (j < regAddr bus dev .input ∨ regAddr bus dev .input + 8 ≤ j) → t.mem.readByte j = s.mem.readByte j

/-- R32: a relay whose line is an output follows its OUTPUT bit, one whose line is an input is undetermined; and after an INIT
that succeeds every relay follows its OUTPUT bit, which INIT has not changed (R146, R224). -/
def Obligations.RelaysFollowOutputAfterInit : Prop :=
  (∀ (s : State) (bus dev : Byte) (r : Nat), 1 ≤ r → r ≤ 16 →
    ((s.device bus dev .configuration).getLsbD (16 - r) = false →
      s.relay bus dev r = some ((s.device bus dev .output).getLsbD (16 - r))) ∧
    ((s.device bus dev .configuration).getLsbD (16 - r) = true → s.relay bus dev r = none)) ∧
  (∀ (s t : State) (stack : Int) (bus : Byte), exec (.init stack bus) s = .next t → t.constructed = true →
    s.constructed = false → t.device s.busId s.devAddr .output = s.device s.busId s.devAddr .output ∧
    ∀ r, 1 ≤ r → r ≤ 16 →
      t.relay s.busId s.devAddr r = some ((s.device s.busId s.devAddr .output).getLsbD (16 - r)))

/-! ## The whole machine -/

/-- The state after reset meets the invariant. -/
def Obligations.ResetMeetsTheInvariant : Prop := State.reset.Inv

/-- R22, R23, R24, R26, R40: every step keeps the invariant. Its clauses `silent` (no response stands while a command is in
progress) and `units` rest on choices of the model (notes/assumptions/11.md and 8.md). -/
def Obligations.EveryStepKeepsTheInvariant : Prop :=
  ∀ s t : State, s.Inv → step s = .next t → t.Inv

/-- R25, R23, R38: no step depends on a register that no rule reads there. Two states that differ in dead registers only step to
states that differ in dead registers only, or stop for the same reason; so the values State.reset names for the unspecified
registers (notes/assumptions/1.md) show in nothing a rule gives a meaning to. -/
def Obligations.DeadRegistersShowInNothing : Prop :=
  ∀ s t : State, s.live = t.live → sameOutcome (fun s' t' => s'.live = t'.live) (step s) (step t)

/-- R65, R229: where the transport answers (TRANSPORT_LIVE), a command in progress comes to its end, whatever the other masters,
the pins and the device's power do meanwhile. Two answers are enough for any command (R64). -/
def Obligations.AnsweredCommandsEnd : Prop :=
  ∀ s : State, s.Inv → s.phase ≠ .idle → s.unitPort = none → (∀ x ∈ s.inputs, x.deviceSide = true) →
    2 ≤ s.inputs.countP Input.isAnswer →
    ∃ n t r, n ≤ s.inputs.length ∧ Host.Core.run core n s = .next t ∧ t.phase = .idle ∧ t.sess = false ∧ t.rsp = some r
end

