-- ==== Sys2Proof/Laws/State.lean ====
section
/-! SUPPORT. One lemma per field per shared update of the state, so that no later proof unfolds a record update. -/

namespace Sys2Proof.Machine

variable (s : State)

theorem closeSession_of_open {s : State} (h : s.sess = true) :
    s.closeSession = { s with sess := false, xport := .closed :: s.xport } := by
  simp [State.closeSession, h]

theorem closeSession_of_closed {s : State} (h : s.sess = false) : s.closeSession = s := by
  simp [State.closeSession, h]

/-! ### openSession -/

@[simp] theorem openSession_stack : s.openSession.stack = s.stack := rfl
@[simp] theorem openSession_busId : s.openSession.busId = s.busId := rfl
@[simp] theorem openSession_devAddr : s.openSession.devAddr = s.devAddr := rfl
@[simp] theorem openSession_constructed : s.openSession.constructed = s.constructed := rfl
@[simp] theorem openSession_phase : s.openSession.phase = s.phase := rfl
@[simp] theorem openSession_op : s.openSession.op = s.op := rfl
@[simp] theorem openSession_arg : s.openSession.arg = s.arg := rfl
@[simp] theorem openSession_flag : s.openSession.flag = s.flag := rfl
@[simp] theorem openSession_data : s.openSession.data = s.data := rfl
@[simp] theorem openSession_tmp : s.openSession.tmp = s.tmp := rfl
@[simp] theorem openSession_sess : s.openSession.sess = true := rfl
@[simp] theorem openSession_mem : s.openSession.mem = s.mem := rfl
@[simp] theorem openSession_cmd : s.openSession.cmd = s.cmd := rfl
@[simp] theorem openSession_rsp : s.openSession.rsp = s.rsp := rfl
@[simp] theorem openSession_xport : s.openSession.xport = .opened s.busId :: s.xport := rfl
@[simp] theorem openSession_units : s.openSession.units = s.units := rfl
@[simp] theorem openSession_unitPort : s.openSession.unitPort = s.unitPort := rfl
@[simp] theorem openSession_inputs : s.openSession.inputs = s.inputs := rfl

/-! ### closeSession -/

@[simp] theorem closeSession_stack : s.closeSession.stack = s.stack := by
  unfold State.closeSession; split <;> rfl
@[simp] theorem closeSession_busId : s.closeSession.busId = s.busId := by
  unfold State.closeSession; split <;> rfl
@[simp] theorem closeSession_devAddr : s.closeSession.devAddr = s.devAddr := by
  unfold State.closeSession; split <;> rfl
@[simp] theorem closeSession_constructed : s.closeSession.constructed = s.constructed := by
  unfold State.closeSession; split <;> rfl
@[simp] theorem closeSession_phase : s.closeSession.phase = s.phase := by
  unfold State.closeSession; split <;> rfl
@[simp] theorem closeSession_op : s.closeSession.op = s.op := by
  unfold State.closeSession; split <;> rfl
@[simp] theorem closeSession_arg : s.closeSession.arg = s.arg := by
  unfold State.closeSession; split <;> rfl
@[simp] theorem closeSession_flag : s.closeSession.flag = s.flag := by
  unfold State.closeSession; split <;> rfl
@[simp] theorem closeSession_data : s.closeSession.data = s.data := by
  unfold State.closeSession; split <;> rfl
@[simp] theorem closeSession_tmp : s.closeSession.tmp = s.tmp := by
  unfold State.closeSession; split <;> rfl
@[simp] theorem closeSession_sess : s.closeSession.sess = false := by
  unfold State.closeSession; split <;> simp_all
@[simp] theorem closeSession_mem : s.closeSession.mem = s.mem := by
  unfold State.closeSession; split <;> rfl
@[simp] theorem closeSession_cmd : s.closeSession.cmd = s.cmd := by
  unfold State.closeSession; split <;> rfl
@[simp] theorem closeSession_rsp : s.closeSession.rsp = s.rsp := by
  unfold State.closeSession; split <;> rfl
@[simp] theorem closeSession_units : s.closeSession.units = s.units := by
  unfold State.closeSession; split <;> rfl
@[simp] theorem closeSession_unitPort : s.closeSession.unitPort = s.unitPort := by
  unfold State.closeSession; split <;> rfl
@[simp] theorem closeSession_inputs : s.closeSession.inputs = s.inputs := by
  unfold State.closeSession; split <;> rfl

/-! ### answered -/

@[simp] theorem answered_stack (r : BusRecord) : (s.answered r).stack = s.stack := rfl
@[simp] theorem answered_busId (r : BusRecord) : (s.answered r).busId = s.busId := rfl
@[simp] theorem answered_devAddr (r : BusRecord) : (s.answered r).devAddr = s.devAddr := rfl
@[simp] theorem answered_constructed (r : BusRecord) : (s.answered r).constructed = s.constructed := rfl
@[simp] theorem answered_phase (r : BusRecord) : (s.answered r).phase = s.phase := rfl
@[simp] theorem answered_op (r : BusRecord) : (s.answered r).op = s.op := rfl
@[simp] theorem answered_arg (r : BusRecord) : (s.answered r).arg = s.arg := rfl
@[simp] theorem answered_flag (r : BusRecord) : (s.answered r).flag = s.flag := rfl
@[simp] theorem answered_data (r : BusRecord) : (s.answered r).data = s.data := rfl
@[simp] theorem answered_tmp (r : BusRecord) : (s.answered r).tmp = s.tmp := rfl
@[simp] theorem answered_sess (r : BusRecord) : (s.answered r).sess = s.sess := rfl
@[simp] theorem answered_mem (r : BusRecord) : (s.answered r).mem = s.mem := rfl
@[simp] theorem answered_cmd (r : BusRecord) : (s.answered r).cmd = s.cmd := rfl
@[simp] theorem answered_rsp (r : BusRecord) : (s.answered r).rsp = s.rsp := rfl
@[simp] theorem answered_xport (r : BusRecord) : (s.answered r).xport = r :: s.xport := rfl
@[simp] theorem answered_units (r : BusRecord) : (s.answered r).units = s.units := rfl
@[simp] theorem answered_unitPort (r : BusRecord) : (s.answered r).unitPort = s.unitPort := rfl
@[simp] theorem answered_inputs (r : BusRecord) : (s.answered r).inputs = s.inputs.tail := rfl

/-! ### startCommand -/

@[simp] theorem startCommand_stack (o : Op) (p : Phase) : (s.startCommand o p).stack = s.stack := rfl
@[simp] theorem startCommand_busId (o : Op) (p : Phase) : (s.startCommand o p).busId = s.busId := rfl
@[simp] theorem startCommand_devAddr (o : Op) (p : Phase) : (s.startCommand o p).devAddr = s.devAddr := rfl
@[simp] theorem startCommand_constructed (o : Op) (p : Phase) : (s.startCommand o p).constructed = s.constructed := rfl
@[simp] theorem startCommand_phase (o : Op) (p : Phase) : (s.startCommand o p).phase = p := rfl
@[simp] theorem startCommand_op (o : Op) (p : Phase) : (s.startCommand o p).op = o := rfl
@[simp] theorem startCommand_arg (o : Op) (p : Phase) : (s.startCommand o p).arg = s.arg := rfl
@[simp] theorem startCommand_flag (o : Op) (p : Phase) : (s.startCommand o p).flag = s.flag := rfl
@[simp] theorem startCommand_data (o : Op) (p : Phase) : (s.startCommand o p).data = s.data := rfl
@[simp] theorem startCommand_tmp (o : Op) (p : Phase) : (s.startCommand o p).tmp = s.tmp := rfl
@[simp] theorem startCommand_sess (o : Op) (p : Phase) : (s.startCommand o p).sess = true := rfl
@[simp] theorem startCommand_mem (o : Op) (p : Phase) : (s.startCommand o p).mem = s.mem := rfl
@[simp] theorem startCommand_cmd (o : Op) (p : Phase) : (s.startCommand o p).cmd = s.cmd := rfl
@[simp] theorem startCommand_rsp (o : Op) (p : Phase) : (s.startCommand o p).rsp = none := rfl
@[simp] theorem startCommand_xport (o : Op) (p : Phase) : (s.startCommand o p).xport = .opened s.busId :: s.xport := rfl
@[simp] theorem startCommand_units (o : Op) (p : Phase) : (s.startCommand o p).units = s.units := rfl
@[simp] theorem startCommand_unitPort (o : Op) (p : Phase) : (s.startCommand o p).unitPort = s.unitPort := rfl
@[simp] theorem startCommand_inputs (o : Op) (p : Phase) : (s.startCommand o p).inputs = s.inputs := rfl

/-! ### raise -/

@[simp] theorem raise_stack (e : Exc) : (s.raise e).stack = s.stack := closeSession_stack s
@[simp] theorem raise_busId (e : Exc) : (s.raise e).busId = s.busId := closeSession_busId s
@[simp] theorem raise_devAddr (e : Exc) : (s.raise e).devAddr = s.devAddr := closeSession_devAddr s
@[simp] theorem raise_constructed (e : Exc) : (s.raise e).constructed = s.constructed := closeSession_constructed s
@[simp] theorem raise_phase (e : Exc) : (s.raise e).phase = .idle := rfl
@[simp] theorem raise_op (e : Exc) : (s.raise e).op = s.op := closeSession_op s
@[simp] theorem raise_arg (e : Exc) : (s.raise e).arg = s.arg := closeSession_arg s
@[simp] theorem raise_flag (e : Exc) : (s.raise e).flag = s.flag := closeSession_flag s
@[simp] theorem raise_data (e : Exc) : (s.raise e).data = s.data := closeSession_data s
@[simp] theorem raise_tmp (e : Exc) : (s.raise e).tmp = s.tmp := closeSession_tmp s
@[simp] theorem raise_sess (e : Exc) : (s.raise e).sess = false := closeSession_sess s
@[simp] theorem raise_mem (e : Exc) : (s.raise e).mem = s.mem := closeSession_mem s
@[simp] theorem raise_cmd (e : Exc) : (s.raise e).cmd = s.cmd := closeSession_cmd s
@[simp] theorem raise_rsp (e : Exc) : (s.raise e).rsp = some e.response := rfl
@[simp] theorem raise_xport (e : Exc) : (s.raise e).xport = s.closeSession.xport := rfl
@[simp] theorem raise_units (e : Exc) : (s.raise e).units = s.units := closeSession_units s
@[simp] theorem raise_unitPort (e : Exc) : (s.raise e).unitPort = s.unitPort := closeSession_unitPort s
@[simp] theorem raise_inputs (e : Exc) : (s.raise e).inputs = s.inputs := closeSession_inputs s

/-! ### returnOk -/

@[simp] theorem returnOk_stack (d : Word) : (s.returnOk d).stack = s.stack := closeSession_stack s
@[simp] theorem returnOk_busId (d : Word) : (s.returnOk d).busId = s.busId := closeSession_busId s
@[simp] theorem returnOk_devAddr (d : Word) : (s.returnOk d).devAddr = s.devAddr := closeSession_devAddr s
@[simp] theorem returnOk_constructed (d : Word) : (s.returnOk d).constructed = s.constructed := closeSession_constructed s
@[simp] theorem returnOk_phase (d : Word) : (s.returnOk d).phase = .idle := rfl
@[simp] theorem returnOk_op (d : Word) : (s.returnOk d).op = s.op := closeSession_op s
@[simp] theorem returnOk_arg (d : Word) : (s.returnOk d).arg = s.arg := closeSession_arg s
@[simp] theorem returnOk_flag (d : Word) : (s.returnOk d).flag = s.flag := closeSession_flag s
@[simp] theorem returnOk_data (d : Word) : (s.returnOk d).data = s.data := closeSession_data s
@[simp] theorem returnOk_tmp (d : Word) : (s.returnOk d).tmp = s.tmp := closeSession_tmp s
@[simp] theorem returnOk_sess (d : Word) : (s.returnOk d).sess = false := closeSession_sess s
@[simp] theorem returnOk_mem (d : Word) : (s.returnOk d).mem = s.mem := closeSession_mem s
@[simp] theorem returnOk_cmd (d : Word) : (s.returnOk d).cmd = s.cmd := closeSession_cmd s
@[simp] theorem returnOk_rsp (d : Word) : (s.returnOk d).rsp = some (response statusOk 0x00#8 d) := rfl
@[simp] theorem returnOk_xport (d : Word) : (s.returnOk d).xport = s.closeSession.xport := rfl
@[simp] theorem returnOk_units (d : Word) : (s.returnOk d).units = s.units := closeSession_units s
@[simp] theorem returnOk_unitPort (d : Word) : (s.returnOk d).unitPort = s.unitPort := closeSession_unitPort s
@[simp] theorem returnOk_inputs (d : Word) : (s.returnOk d).inputs = s.inputs := closeSession_inputs s

/-! ### setDevice -/

@[simp] theorem setDevice_stack (b d : Byte) (g : Reg) (v : Word) : (s.setDevice b d g v).stack = s.stack := rfl
@[simp] theorem setDevice_busId (b d : Byte) (g : Reg) (v : Word) : (s.setDevice b d g v).busId = s.busId := rfl
@[simp] theorem setDevice_devAddr (b d : Byte) (g : Reg) (v : Word) : (s.setDevice b d g v).devAddr = s.devAddr := rfl
@[simp] theorem setDevice_constructed (b d : Byte) (g : Reg) (v : Word) : (s.setDevice b d g v).constructed = s.constructed := rfl
@[simp] theorem setDevice_phase (b d : Byte) (g : Reg) (v : Word) : (s.setDevice b d g v).phase = s.phase := rfl
@[simp] theorem setDevice_op (b d : Byte) (g : Reg) (v : Word) : (s.setDevice b d g v).op = s.op := rfl
@[simp] theorem setDevice_arg (b d : Byte) (g : Reg) (v : Word) : (s.setDevice b d g v).arg = s.arg := rfl
@[simp] theorem setDevice_flag (b d : Byte) (g : Reg) (v : Word) : (s.setDevice b d g v).flag = s.flag := rfl
@[simp] theorem setDevice_data (b d : Byte) (g : Reg) (v : Word) : (s.setDevice b d g v).data = s.data := rfl
@[simp] theorem setDevice_tmp (b d : Byte) (g : Reg) (v : Word) : (s.setDevice b d g v).tmp = s.tmp := rfl
@[simp] theorem setDevice_sess (b d : Byte) (g : Reg) (v : Word) : (s.setDevice b d g v).sess = s.sess := rfl
@[simp] theorem setDevice_mem (b d : Byte) (g : Reg) (v : Word) : (s.setDevice b d g v).mem = s.mem.writeWord (regAddr b d g) v := rfl
@[simp] theorem setDevice_cmd (b d : Byte) (g : Reg) (v : Word) : (s.setDevice b d g v).cmd = s.cmd := rfl
@[simp] theorem setDevice_rsp (b d : Byte) (g : Reg) (v : Word) : (s.setDevice b d g v).rsp = s.rsp := rfl
@[simp] theorem setDevice_xport (b d : Byte) (g : Reg) (v : Word) : (s.setDevice b d g v).xport = s.xport := rfl
@[simp] theorem setDevice_units (b d : Byte) (g : Reg) (v : Word) : (s.setDevice b d g v).units = s.units := rfl
@[simp] theorem setDevice_unitPort (b d : Byte) (g : Reg) (v : Word) : (s.setDevice b d g v).unitPort = s.unitPort := rfl
@[simp] theorem setDevice_inputs (b d : Byte) (g : Reg) (v : Word) : (s.setDevice b d g v).inputs = s.inputs := rfl

end Sys2Proof.Machine
end

