-- ==== Sys2Proof/Laws/Memory.lean ====
section
/-! SUPPORT. The memory: reading after storing one byte, the canonical form, and what a stored word leaves alone. -/

namespace Sys2Proof.Machine

@[simp] theorem Memory.get_nil (k : Nat) : Memory.get [] k = none := rfl

theorem Memory.get_put_self (m : Memory) (k : Nat) (v : Byte) : (m.put k v).get k = some v := by
  induction m with
  | nil => simp [Memory.put, Memory.get]
  | cons c rest ih =>
    obtain ⟨a, b⟩ := c
    unfold Memory.put
    split
    · simp [Memory.get]
    · split
      · simp [Memory.get]
      · rename_i h₁ h₂
        simp [Memory.get, Ne.symm h₂, ih]

theorem Memory.get_put_other (m : Memory) (k j : Nat) (v : Byte) (h : j ≠ k) : (m.put k v).get j = m.get j := by
  induction m with
  | nil => simp [Memory.put, Memory.get, Ne.symm h]
  | cons c rest ih =>
    obtain ⟨a, b⟩ := c
    unfold Memory.put
    split
    · simp [Memory.get, Ne.symm h]
    · split
      · rename_i h₁ h₂
        subst h₂
        simp [Memory.get, Ne.symm h]
      · simp [Memory.get, ih]

/-- A byte stored is the byte read there. -/
@[simp] theorem Memory.readByte_put_self (m : Memory) (k : Nat) (v : Byte) : (m.put k v).readByte k = v := by
  simp [Memory.readByte, Memory.get_put_self]

/-- Storing a byte leaves every other byte as it reads. -/
theorem Memory.readByte_put_other (m : Memory) (k j : Nat) (v : Byte) (h : j ≠ k) :
    (m.put k v).readByte j = m.readByte j := by
  simp [Memory.readByte, Memory.get_put_other m k j v h]

theorem Memory.above_put {l k : Nat} (v : Byte) (hk : l < k) {m : Memory} (h : Memory.above l m = true) :
    Memory.above l (m.put k v) = true := by
  induction m generalizing l with
  | nil => simp [Memory.put, Memory.above, hk]
  | cons c rest ih =>
    obtain ⟨a, b⟩ := c
    simp only [Memory.above, Bool.and_eq_true, decide_eq_true_eq] at h
    unfold Memory.put
    split
    · rename_i hka
      simp [Memory.above, hk, hka, h.2]
    · split
      · rename_i _ hka
        subst hka
        simp [Memory.above, hk, h.2]
      · have : a < k := by omega
        simp [Memory.above, h.1, ih this h.2]

/-- Storing a byte keeps the canonical form. -/
theorem Memory.wf_put (m : Memory) (k : Nat) (v : Byte) (h : m.wf = true) : (m.put k v).wf = true := by
  cases m with
  | nil => rfl
  | cons c rest =>
    obtain ⟨a, b⟩ := c
    simp only [Memory.wf] at h
    unfold Memory.put
    split
    · rename_i hka
      simp [Memory.wf, Memory.above, hka, h]
    · split
      · rename_i _ hka
        subst hka
        simpa [Memory.wf] using h
      · have : a < k := by omega
        simpa [Memory.wf] using Memory.above_put v this h

/-- Storing a word keeps the canonical form. -/
theorem Memory.wf_writeWord (m : Memory) (k : Nat) (v : Word) (h : m.wf = true) : (m.writeWord k v).wf = true :=
  Memory.wf_put _ _ _ (Memory.wf_put _ _ _ h)

/-- The memory of the reset state has the canonical form. -/
theorem reset_mem_wf : State.reset.mem.wf = true := rfl

end Sys2Proof.Machine
end

