-- ==== Sys2Proof/Laws/Ops.lean ====
section
/-! SUPPORT. What each shared operation can do, said once: the two bus transactions, taking an exception and ending a command,
what is due, and a step. -/

namespace Sys2Proof.Machine

/-- What a read transaction can do: wait, fail with nothing changed on the device, or return the word addressed. -/
theorem memRead_cases (s : State) (reg : Reg) :
    (s.memRead reg = .waiting ∧ ∀ a rest, s.inputs ≠ .answer a :: rest) ∨
    (∃ c left rest, s.inputs = .answer (.err c left) :: rest ∧
      s.memRead reg = .err c (s.answered (.readErr s.devAddr reg.offset c))) ∨
    (∃ rest, s.inputs = .answer .ok :: rest ∧
      s.memRead reg = .ok (s.mem.readWord (s.target reg))
        (s.answered (.readOk s.devAddr reg.offset (s.mem.readWord (s.target reg))))) := by
  unfold State.memRead
  split
  · rename_i rest h; exact .inr (.inr ⟨rest, h, rfl⟩)
  · rename_i c left rest h; exact .inr (.inl ⟨c, left, rest, h, rfl⟩)
  · rename_i h₁ h₂
    refine .inl ⟨rfl, fun a rest h => ?_⟩
    cases a with
    | ok => exact h₁ _ h
    | err c left => exact h₂ _ _ _ h

/-- What a write transaction can do: wait, fail with any value left in the register addressed, or store the word there. -/
theorem memWrite_cases (s : State) (reg : Reg) (v : Word) :
    (s.memWrite reg v = .waiting ∧ ∀ a rest, s.inputs ≠ .answer a :: rest) ∨
    (∃ c left rest, s.inputs = .answer (.err c left) :: rest ∧
      s.memWrite reg v = .err c
        ({ s with mem := s.mem.writeWord (s.target reg) left }.answered (.writeErr s.devAddr reg.offset v c))) ∨
    (∃ rest, s.inputs = .answer .ok :: rest ∧
      s.memWrite reg v = .ok ()
        ({ s with mem := s.mem.writeWord (s.target reg) v }.answered (.writeOk s.devAddr reg.offset v))) := by
  unfold State.memWrite
  split
  · rename_i rest h; exact .inr (.inr ⟨rest, h, rfl⟩)
  · rename_i c left rest h; exact .inr (.inl ⟨c, left, rest, h, rfl⟩)
  · rename_i h₁ h₂
    refine .inl ⟨rfl, fun a rest h => ?_⟩
    cases a with
    | ok => exact h₁ _ h
    | err c left => exact h₂ _ _ _ h

theorem memRead_of_ok {s : State} {rest : List Input} (reg : Reg) (h : s.inputs = .answer .ok :: rest) :
    s.memRead reg = .ok (s.mem.readWord (s.target reg))
      (s.answered (.readOk s.devAddr reg.offset (s.mem.readWord (s.target reg)))) := by
  simp [State.memRead, h]

theorem memRead_of_err {s : State} {rest : List Input} {c : Cause} {left : Word} (reg : Reg)
    (h : s.inputs = .answer (.err c left) :: rest) :
    s.memRead reg = .err c (s.answered (.readErr s.devAddr reg.offset c)) := by
  simp [State.memRead, h]

theorem memWrite_of_ok {s : State} {rest : List Input} (reg : Reg) (v : Word) (h : s.inputs = .answer .ok :: rest) :
    s.memWrite reg v = .ok ()
      ({ s with mem := s.mem.writeWord (s.target reg) v }.answered (.writeOk s.devAddr reg.offset v)) := by
  simp [State.memWrite, h]

theorem memWrite_of_err {s : State} {rest : List Input} {c : Cause} {left : Word} (reg : Reg) (v : Word)
    (h : s.inputs = .answer (.err c left) :: rest) :
    s.memWrite reg v = .err c
      ({ s with mem := s.mem.writeWord (s.target reg) left }.answered (.writeErr s.devAddr reg.offset v c)) := by
  simp [State.memWrite, h]

/-- What can be due in a state, and when. -/
theorem due_cases (s : State) :
    (∃ u, s.unitPort = some u ∧ s.due = .run u.instr { s with unitPort := none }) ∨
    (∃ i a rest, s.unitPort = none ∧ s.inProgress = some i ∧ s.inputs = .answer a :: rest ∧ s.due = .run i s) ∨
    (∃ w i, s.unitPort = none ∧ s.phase = .idle ∧ s.cmd = some w ∧ decodeCommand w = .instr i ∧
      s.due = .run i { s with cmd := none }) ∨
    (∃ w why, s.unitPort = none ∧ s.phase = .idle ∧ s.cmd = some w ∧ decodeCommand w = .illegal why ∧
      s.due = .illegal { s with cmd := none }) ∨
    (s.unitPort = none ∧ (s.phase = .idle → s.cmd = none) ∧
      (s.phase ≠ .idle → ∀ a rest, s.inputs ≠ .answer a :: rest) ∧ s.due = .environment) := by
  unfold State.due
  split
  · rename_i u hu; exact .inl ⟨u, hu, rfl⟩
  · rename_i hu
    have hp : s.phase = .idle ↔ s.inProgress = none := by
      unfold State.inProgress; cases s.phase <;> simp
    split
    · rename_i i hi
      have hb : s.phase ≠ .idle := by simp [hp, hi]
      split
      · rename_i a rest h; exact .inr (.inl ⟨i, a, rest, hu, hi, h, rfl⟩)
      · rename_i h
        exact .inr (.inr (.inr (.inr ⟨hu, fun e => absurd e hb, fun _ a rest e => h a rest e, rfl⟩)))
    · rename_i hi
      have hb := hp.2 hi
      split
      · rename_i hc; exact .inr (.inr (.inr (.inr ⟨hu, fun _ => hc, fun e => absurd hb e, rfl⟩)))
      · rename_i w hc
        split
        · rename_i i hd; exact .inr (.inr (.inl ⟨w, i, hu, hb, hc, hd, rfl⟩))
        · rename_i why hd; exact .inr (.inr (.inr (.inl ⟨w, why, hu, hb, hc, hd, rfl⟩)))

theorem step_of_run {s t : State} {i : Instr} (h : s.due = .run i t) : step s = exec i t := by simp [step, h]

theorem step_of_illegal {s t : State} (h : s.due = .illegal t) : step s = .next (t.raise .illegal) := by simp [step, h]

theorem step_of_environment {s : State} (h : s.due = .environment) : step s = s.envStep := by simp [step, h]

end Sys2Proof.Machine
end

