-- ==== Sys2Proof/Laws/Exec.lean ====
section
/-! SUPPORT. What an instruction's step can do, said once: `Transition` lists every next state `exec` can answer, and
`exec_next` says the list is complete. `due_cases` (Laws/Ops.lean) with `exec_next` and `envStep` covers every step. -/

namespace Sys2Proof.Machine

/-- The exception a failed transaction of a phase raises (R188, R189). -/
def Phase.failure (p : Phase) (c : Cause) : Exc :=
  if p = .initRd ∨ p = .initWr then .initializationError c else .operationError c

/-- Every way an instruction's step can go on. -/
inductive Transition : Instr → State → State → Prop where
  | r2io (v : Word) (s : State) :
    Transition (.r2io v) s { s with units := { s.units with r2ioIn := v, r2ioOut := Machine.r2io v } }
  | io2r (v : Word) (s : State) :
    Transition (.io2r v) s { s with units := { s.units with io2rIn := v, io2rOut := Machine.io2r v } }
  | devaddr (x : Int) (s : State) :
    Transition (.devaddr x) s { s with units := { s.units with devIn := x, devOut := Machine.devaddr x } }
  /-- No answer has come. -/
  | wait (i : Instr) (s : State) (busy : s.phase ≠ .idle) (none : ∀ a rest, s.inputs ≠ .answer a :: rest) :
    Transition i s s
  /-- InvalidArgument at acceptance. -/
  | reject (i : Instr) (s : State) (idle : s.phase = .idle) : Transition i s (s.raise .invalidArgument)
  | acceptInit (stack : Int) (bus dev : Byte) (s : State) (idle : s.phase = .idle) (h : s.constructed = false)
    (legal : Machine.devaddr stack = some dev) :
    Transition (.init stack bus) s
      ({ s with stack := BitVec.ofInt 3 stack, busId := bus, devAddr := dev }.startCommand .init .initRd)
  | acceptSet (relay : Int) (on : Bool) (s : State) (idle : s.phase = .idle) (h : s.constructed = true)
    (legal : relayLegal relay = true) :
    Transition (.set relay on) s ({ s with arg := relayBit relay, flag := on }.startCommand .set .setRd)
  | acceptSetAll (mask : Word) (s : State) (idle : s.phase = .idle) (h : s.constructed = true) :
    Transition (.setAll mask) s ({ s with data := mask }.startCommand .setAll .setAllWr)
  | acceptGet (relay : Int) (s : State) (idle : s.phase = .idle) (h : s.constructed = true)
    (legal : relayLegal relay = true) :
    Transition (.get relay) s ({ s with arg := relayBit relay }.startCommand .get .getRd)
  | acceptGetAll (s : State) (idle : s.phase = .idle) (h : s.constructed = true) :
    Transition .getAll s (s.startCommand .getAll .getAllRd)
  /-- A read transaction fails. -/
  | readErr (i : Instr) (s : State) (reg : Reg) (c : Cause) (left : Word) (rest : List Input)
    (answer : s.inputs = .answer (.err c left) :: rest) (due : s.phase.request = some (.read, reg)) :
    Transition i s ((s.answered (.readErr s.devAddr reg.offset c)).raise (s.phase.failure c))
  /-- A write transaction fails and leaves any value. -/
  | writeErr (i : Instr) (s : State) (reg : Reg) (v : Word) (c : Cause) (left : Word) (rest : List Input)
    (answer : s.inputs = .answer (.err c left) :: rest) (due : s.phase.request = some (.write, reg))
    (value : reg = .configuration → v = 0x0000#16) :
    Transition i s
      (({ s with mem := s.mem.writeWord (s.target reg) left }.answered (.writeErr s.devAddr reg.offset v c)).raise
        (s.phase.failure c))
  | initReadZero (i : Instr) (s : State) (rest : List Input) (answer : s.inputs = .answer .ok :: rest)
    (phase : s.phase = .initRd) (word : s.mem.readWord (s.target .configuration) = 0x0000#16) :
    Transition i s ({ s.answered (.readOk s.devAddr Reg.configuration.offset 0x0000#16) with
      constructed := true }.returnOk 0x0000#16)
  | initReadNonzero (i : Instr) (s : State) (rest : List Input) (w : Word) (answer : s.inputs = .answer .ok :: rest)
    (phase : s.phase = .initRd) (word : s.mem.readWord (s.target .configuration) = w) (nonzero : w ≠ 0x0000#16) :
    Transition i s { s.answered (.readOk s.devAddr Reg.configuration.offset w) with tmp := w, phase := .initWr }
  | initWriteOk (i : Instr) (s : State) (rest : List Input) (answer : s.inputs = .answer .ok :: rest)
    (phase : s.phase = .initWr) :
    Transition i s ({ { s with mem := s.mem.writeWord (s.target .configuration) 0x0000#16 }.answered
      (.writeOk s.devAddr Reg.configuration.offset 0x0000#16) with constructed := true }.returnOk 0x0000#16)
  | setReadOk (i : Instr) (s : State) (rest : List Input) (w : Word) (answer : s.inputs = .answer .ok :: rest)
    (phase : s.phase = .setRd) (word : s.mem.readWord (s.target .output) = w) :
    Transition i s { s.answered (.readOk s.devAddr Reg.output.offset w) with tmp := w, phase := .setWr }
  | writeOutputOk (i : Instr) (s : State) (rest : List Input) (v : Word) (answer : s.inputs = .answer .ok :: rest)
    (phase : s.phase = .setWr ∧ v = setWord s.tmp s.arg s.flag ∨ s.phase = .setAllWr ∧ v = Machine.r2io s.data) :
    Transition i s (({ s with mem := s.mem.writeWord (s.target .output) v }.answered
      (.writeOk s.devAddr Reg.output.offset v)).returnOk 0x0000#16)
  | getReadOk (i : Instr) (s : State) (rest : List Input) (w d : Word) (answer : s.inputs = .answer .ok :: rest)
    (word : s.mem.readWord (s.target .output) = w)
    (phase : s.phase = .getRd ∧ d = boolData ((Machine.io2r w).getLsbD s.arg.toNat) ∨
      s.phase = .getAllRd ∧ d = Machine.io2r w) :
    Transition i s ((s.answered (.readOk s.devAddr Reg.output.offset w)).returnOk d)

theorem execInit_next {stack : Int} {bus : Byte} {s t : State} (h : execInit stack bus s = .next t) :
    Transition (.init stack bus) s t := by
  unfold execInit at h
  split at h <;> rename_i hp
  · unfold initAccept at h
    split at h
    · cases h
    · rename_i hc
      split at h <;> cases h
      · exact .reject _ _ hp
      · exact .acceptInit _ _ _ _ hp (by simpa using hc) ‹_›
  · unfold initRead at h
    rcases memRead_cases s .configuration with ⟨e, ha⟩ | ⟨c, l, r, ha, e⟩ | ⟨r, ha, e⟩ <;> rw [e] at h
    · cases h; exact .wait _ _ (by simp [hp]) ha
    · cases h; simpa [Phase.failure, hp] using Transition.readErr (.init stack bus) s .configuration c l r ha (by simp [hp, Phase.request])
    · dsimp only at h
      split at h <;> cases h
      · rename_i hw; rw [hw]; exact .initReadZero _ _ r ha hp hw
      · rename_i hw; exact .initReadNonzero _ _ r _ ha hp rfl hw
  · unfold initWrite at h
    rcases memWrite_cases s .configuration 0x0000#16 with ⟨e, ha⟩ | ⟨c, l, r, ha, e⟩ | ⟨r, ha, e⟩ <;> rw [e] at h <;> cases h
    · exact .wait _ _ (by simp [hp]) ha
    · simpa [Phase.failure, hp] using Transition.writeErr (.init stack bus) s .configuration 0x0000#16 c l r ha (by simp [hp, Phase.request]) (fun _ => rfl)
    · exact .initWriteOk _ _ r ha hp
  all_goals cases h

theorem execSet_next {relay : Int} {on : Bool} {s t : State} (h : execSet relay on s = .next t) :
    Transition (.set relay on) s t := by
  unfold execSet at h
  split at h <;> rename_i hp
  · unfold setAccept at h
    split at h
    · cases h
    · rename_i hc
      split at h <;> cases h
      · exact .acceptSet _ _ _ hp (by simpa using hc) ‹_›
      · exact .reject _ _ hp
  · unfold setRead at h
    rcases memRead_cases s .output with ⟨e, ha⟩ | ⟨c, l, r, ha, e⟩ | ⟨r, ha, e⟩ <;> rw [e] at h <;> cases h
    · exact .wait _ _ (by simp [hp]) ha
    · simpa [Phase.failure, hp] using Transition.readErr (.set relay on) s .output c l r ha (by simp [hp, Phase.request])
    · exact .setReadOk _ _ r _ ha hp rfl
  · unfold setWrite at h
    rcases memWrite_cases s .output (setWord s.tmp s.arg s.flag) with ⟨e, ha⟩ | ⟨c, l, r, ha, e⟩ | ⟨r, ha, e⟩ <;>
      rw [e] at h <;> cases h
    · exact .wait _ _ (by simp [hp]) ha
    · simpa [Phase.failure, hp] using Transition.writeErr (.set relay on) s .output (setWord s.tmp s.arg s.flag) c l r ha
        (by simp [hp, Phase.request]) (by simp)
    · exact .writeOutputOk _ _ r _ ha (.inl ⟨hp, rfl⟩)
  all_goals cases h

theorem execSetAll_next {mask : Word} {s t : State} (h : execSetAll mask s = .next t) :
    Transition (.setAll mask) s t := by
  unfold execSetAll at h
  split at h <;> rename_i hp
  · unfold setAllAccept at h
    split at h
    · cases h
    · rename_i hc
      cases h
      exact .acceptSetAll _ _ hp (by simpa using hc)
  · unfold setAllWrite at h
    rcases memWrite_cases s .output (Machine.r2io s.data) with ⟨e, ha⟩ | ⟨c, l, r, ha, e⟩ | ⟨r, ha, e⟩ <;>
      rw [e] at h <;> cases h
    · exact .wait _ _ (by simp [hp]) ha
    · simpa [Phase.failure, hp] using Transition.writeErr (.setAll mask) s .output (Machine.r2io s.data) c l r ha
        (by simp [hp, Phase.request]) (by simp)
    · exact .writeOutputOk _ _ r _ ha (.inr ⟨hp, rfl⟩)
  all_goals cases h

theorem execGet_next {relay : Int} {s t : State} (h : execGet relay s = .next t) : Transition (.get relay) s t := by
  unfold execGet at h
  split at h <;> rename_i hp
  · unfold getAccept at h
    split at h
    · cases h
    · rename_i hc
      split at h <;> cases h
      · exact .acceptGet _ _ hp (by simpa using hc) ‹_›
      · exact .reject _ _ hp
  · unfold getRead at h
    rcases memRead_cases s .output with ⟨e, ha⟩ | ⟨c, l, r, ha, e⟩ | ⟨r, ha, e⟩ <;> rw [e] at h <;> cases h
    · exact .wait _ _ (by simp [hp]) ha
    · simpa [Phase.failure, hp] using Transition.readErr (.get relay) s .output c l r ha (by simp [hp, Phase.request])
    · exact .getReadOk _ _ r _ _ ha rfl (.inl ⟨hp, rfl⟩)
  all_goals cases h

theorem execGetAll_next {s t : State} (h : execGetAll s = .next t) : Transition .getAll s t := by
  unfold execGetAll at h
  split at h <;> rename_i hp
  · unfold getAllAccept at h
    split at h
    · cases h
    · rename_i hc
      cases h
      exact .acceptGetAll _ hp (by simpa using hc)
  · unfold getAllRead at h
    rcases memRead_cases s .output with ⟨e, ha⟩ | ⟨c, l, r, ha, e⟩ | ⟨r, ha, e⟩ <;> rw [e] at h <;> cases h
    · exact .wait _ _ (by simp [hp]) ha
    · simpa [Phase.failure, hp] using Transition.readErr .getAll s .output c l r ha (by simp [hp, Phase.request])
    · exact .getReadOk _ _ r _ _ ha rfl (.inr ⟨hp, rfl⟩)
  all_goals cases h

/-- Every next state an instruction's step can answer is one of `Transition`'s. -/
theorem exec_next {i : Instr} {s t : State} (h : exec i s = .next t) : Transition i s t := by
  cases i with
  | init stack bus => exact execInit_next h
  | set relay on => exact execSet_next h
  | setAll mask => exact execSetAll_next h
  | get relay => exact execGet_next h
  | getAll => exact execGetAll_next h
  | r2io v => cases h; exact .r2io v s
  | io2r v => cases h; exact .io2r v s
  | devaddr x => cases h; exact .devaddr x s

end Sys2Proof.Machine
end

