-- ==== Sys2Proof/Laws/PerInstr.lean ====
section
/-! SUPPORT. Statements for all instructions, one lemma per constructor. -/

/-- The stimulus that encodes an instruction lies in the instruction's row of the opcode table: a command's word matches the
row's mask and match (R86), a function unit's input arrives on that unit's port (R92). -/
def Sys2Proof.Laws.InRow.Statement (i : Sys2Proof.Instr) : Prop :=
  match i, Sys2Proof.encode i with
  | .init _ _, .command w => w &&& 0xFF000000#32 = 0x10000000#32
  | .set _ _, .command w => w &&& 0xFEFF0000#32 = 0x20000000#32
  | .setAll _, .command w => w &&& 0xFFFF0000#32 = 0x30000000#32
  | .get _, .command w => w &&& 0xFFFF0000#32 = 0x40000000#32
  | .getAll, .command w => w &&& 0xFFFFFFFF#32 = 0x50000000#32
  | .r2io v, .unit u => u = .r2io v
  | .io2r v, .unit u => u = .io2r v
  | .devaddr x, .unit u => u = .devaddr (Sys2Proof.field16 x)
  | _, _ => False

theorem Sys2Proof.Laws.packCommand_and (op mop : BitVec 4) (f mf : BitVec 1) (bus mbus : Sys2Proof.Byte)
    (arg marg : Sys2Proof.Word) :
    Sys2Proof.packCommand op f bus arg &&& (Sys2Proof.packCommand mop mf mbus marg ||| 7#32 <<< 25) =
      Sys2Proof.packCommand (op &&& mop) (f &&& mf) (bus &&& mbus) (arg &&& marg) := by
  apply BitVec.eq_of_getLsbD_eq
  intro i hi
  interval_cases i <;> simp [Sys2Proof.packCommand]

theorem Sys2Proof.Laws.InRow.init (stack : Int) (bus : Sys2Proof.Byte) :
    Sys2Proof.Laws.InRow.Statement (.init stack bus) := by
  have h := Sys2Proof.Laws.packCommand_and 0x1#4 0xF#4 0#1 1#1 bus 0#8 (Sys2Proof.field16 stack) 0#16
  simpa [Sys2Proof.Laws.InRow.Statement, Sys2Proof.encode, Sys2Proof.packCommand] using h

theorem Sys2Proof.Laws.InRow.set (relay : Int) (on : Bool) : Sys2Proof.Laws.InRow.Statement (.set relay on) := by
  have h := Sys2Proof.Laws.packCommand_and 0x2#4 0xF#4 (BitVec.ofBool on) 0#1 0#8 0xFF#8 (Sys2Proof.field16 relay) 0#16
  simpa [Sys2Proof.Laws.InRow.Statement, Sys2Proof.encode, Sys2Proof.packCommand] using h

theorem Sys2Proof.Laws.InRow.setAll (mask : Sys2Proof.Word) : Sys2Proof.Laws.InRow.Statement (.setAll mask) := by
  have h := Sys2Proof.Laws.packCommand_and 0x3#4 0xF#4 0#1 1#1 0#8 0xFF#8 mask 0#16
  simpa [Sys2Proof.Laws.InRow.Statement, Sys2Proof.encode, Sys2Proof.packCommand] using h

theorem Sys2Proof.Laws.InRow.get (relay : Int) : Sys2Proof.Laws.InRow.Statement (.get relay) := by
  have h := Sys2Proof.Laws.packCommand_and 0x4#4 0xF#4 0#1 1#1 0#8 0xFF#8 (Sys2Proof.field16 relay) 0#16
  simpa [Sys2Proof.Laws.InRow.Statement, Sys2Proof.encode, Sys2Proof.packCommand] using h

theorem Sys2Proof.Laws.InRow.getAll : Sys2Proof.Laws.InRow.Statement .getAll := by
  simp [Sys2Proof.Laws.InRow.Statement, Sys2Proof.encode, Sys2Proof.packCommand]

theorem Sys2Proof.Laws.InRow.r2io (v : Sys2Proof.Word) : Sys2Proof.Laws.InRow.Statement (.r2io v) := rfl

theorem Sys2Proof.Laws.InRow.io2r (v : Sys2Proof.Word) : Sys2Proof.Laws.InRow.Statement (.io2r v) := rfl

theorem Sys2Proof.Laws.InRow.devaddr (x : Int) : Sys2Proof.Laws.InRow.Statement (.devaddr x) := rfl
end

