-- ==== Sys2Proof/Tests/Slice0.lean ====
section
/-! SUPPORT. Tests. Expected values are those of spec/95_test_vectors.md (part 2) and of the tables of R86 and R89; each is one
step on a small state. Then, for each obligation with hypotheses, a state and operands that meet them together. -/

namespace Sys2Proof.Machine.Tests

open Sys2Proof

/-! ## Small states -/

/-- The device at address 0x27 on bus 1, with these OUTPUT and CONFIGURATION words. -/
def cells (out cfg : Word) : Memory :=
  [(75522, out.extractLsb' 0 8), (75523, out.extractLsb' 8 8), (75526, cfg.extractLsb' 0 8), (75527, cfg.extractLsb' 8 8)]

/-- A constructed Board: stack level 0 on bus 1. -/
def board (out : Word) : State :=
  { State.reset with
    constructed := true
    busId := 1#8
    devAddr := 0x27#8
    mem := cells out 0x0000#16 }

/-- The Board inside a command, with its session open and the transport's answer next. -/
def busy (p : Phase) (o : Op) (out : Word) (a : Answer) : State :=
  { board out with
    phase := p
    op := o
    sess := true
    inputs := [.answer a] }

/-- A block inside INIT, the device holding this CONFIGURATION. -/
def initing (p : Phase) (cfg : Word) (a : Answer) : State :=
  { State.reset with
    busId := 1#8
    devAddr := 0x27#8
    phase := p
    sess := true
    tmp := cfg
    mem := cells 0x1234#16 cfg
    inputs := [.answer a] }

/-- A command word on the port of an idle block. -/
def offered (s : State) (w : PortWord) (moves : List Input) : State :=
  { s with
    cmd := some w
    inputs := moves }

/-- A block that has not been constructed, beside the device at address 0x27 on bus 1. -/
def fresh (cfg : Word) : State :=
  { State.reset with
    mem := cells 0x1234#16 cfg }

/-- The next state, where there is one. -/
def after : Host.Outcome State Fault Refusal → Option State
  | .next s => some s
  | .fault _ => none
  | .refused _ => none

/-- A field of the next state. -/
def afterwards {α : Type} (o : Host.Outcome State Fault Refusal) (f : State → α) : Option α := (after o).map f

/-! ## WellFormed: each check refuses an ill-formed term -/

theorem test_wf_init_refused : (Instr.init 40000 1#8).wf = false := by decide
theorem test_wf_set_refused : (Instr.set (-40000) true).wf = false := by decide
theorem test_wf_get_refused : (Instr.get 32768).wf = false := by decide
theorem test_wf_devaddr_refused : (Instr.devaddr (-32769)).wf = false := by decide
theorem test_wf_set_17_admitted : (Instr.set 17 true).wf = true := by decide

/-! ## Decoding: words written out from the patterns of R86 -/

theorem test_decode_init : decodeCommand 0b0001_0000_10000001_0000000000000111#32 = .instr (.init 7 0x81#8) := by decide
theorem test_decode_init_negative : decodeCommand 0b0001_0000_00000001_1111111111111111#32 = .instr (.init (-1) 1#8) := by
  decide
theorem test_decode_set_on : decodeCommand 0b0010_0001_00000000_0000000000000011#32 = .instr (.set 3 true) := by decide
theorem test_decode_set_off : decodeCommand 0b0010_0000_00000000_1111111111111111#32 = .instr (.set (-1) false) := by decide
theorem test_decode_set_all : decodeCommand 0b0011_0000_00000000_1111111111111111#32 = .instr (.setAll 0xFFFF#16) := by
  decide
theorem test_decode_get : decodeCommand 0b0100_0000_00000000_0000000000010000#32 = .instr (.get 16) := by decide
theorem test_decode_get_all : decodeCommand 0b0101_0000_00000000_0000000000000000#32 = .instr .getAll := by decide
theorem test_decode_r2io : decode (.unit (.r2io 0b0000000000000011#16)) = .instr (.r2io 0x0003#16) := by decide
theorem test_decode_io2r : decode (.unit (.io2r 0b1100000000000000#16)) = .instr (.io2r 0xC000#16) := by decide
theorem test_decode_devaddr : decode (.unit (.devaddr 0b1111111111111111#16)) = .instr (.devaddr (-1)) := by decide

/-- The illegal rows of section 2.3. -/
theorem test_decode_illegal :
    decodeCommand 0x00000000#32 = .illegal .reservedOpcode ∧ decodeCommand 0xFFFFFFFF#32 = .illegal .reservedOpcode ∧
    decodeCommand 0x60000000#32 = .illegal .reservedOpcode ∧ decodeCommand 0x50000001#32 = .illegal .argNotZero ∧
    decodeCommand 0x41000001#32 = .illegal .flagNotZero ∧ decodeCommand 0x31000000#32 = .illegal .flagNotZero ∧
    decodeCommand 0x20010001#32 = .illegal .busNotZero ∧ decodeCommand 0x22000001#32 = .illegal .reservedBits ∧
    decodeCommand 0x11010000#32 = .illegal .flagNotZero := by decide

/-! ## Instructions: one step each -/

/-- 2.4: stack 7 gives device address 0x20. -/
theorem test_init_accept : afterwards (exec (.init 7 1#8) (fresh 0x8000#16)) (fun t => (t.devAddr, t.phase)) =
    some (0x20#8, .initRd) := by decide
/-- 2.4: CFG = FFFF, wr 06 <- 0000, response 00000000. -/
theorem test_init_write : afterwards (exec (.init 0 1#8) (initing .initWr 0xFFFF#16 .ok))
    (fun t => (t.device 1#8 0x27#8 .configuration, t.constructed, t.rsp)) = some (0x0000#16, true, some 0x00000000#32) := by
  decide
/-- 2.5: SET 8, on with 1234 writes 1334. -/
theorem test_set_write : afterwards
    (exec (.set 8 true) { busy .setWr .set 0x1234#16 .ok with tmp := 0x1234#16, arg := 7#4, flag := true })
    (fun t => (t.device 1#8 0x27#8 .output, t.rsp)) = some (0x1334#16, some 0x00000000#32) := by decide
/-- 2.5: SET 17, on makes no transaction and answers 10000000. -/
theorem test_set_17 : afterwards (exec (.set 17 true) (board 0x1234#16)) (fun t => (t.rsp, t.xport)) =
    some (some 0x10000000#32, []) := by decide
/-- 2.6: SET_ALL 0001 writes 8000. -/
theorem test_set_all_write : afterwards (exec (.setAll 1#16) { busy .setAllWr .setAll 0xFFFF#16 .ok with data := 1#16 })
    (fun t => t.device 1#8 0x27#8 .output) = some 0x8000#16 := by decide
/-- 2.6: a write that fails with cause 02 answers 30020000. -/
theorem test_set_all_error : afterwards
    (exec (.setAll 1#16) (busy .setAllWr .setAll 0xFFFF#16 (.err .timeout 0xABCD#16))) (fun t => t.rsp) =
    some (some 0x30020000#32) := by decide
/-- 2.7: GET 4 with 1234 answers 1. -/
theorem test_get_4 : afterwards (exec (.get 4) { busy .getRd .get 0x1234#16 .ok with arg := 3#4 }) (fun t => t.rsp) =
    some (some 0x00000001#32) := by decide
/-- 2.7: GET 13 with 1234 answers 0. -/
theorem test_get_13 : afterwards (exec (.get 13) { busy .getRd .get 0x1234#16 .ok with arg := 12#4 }) (fun t => t.rsp) =
    some (some 0x00000000#32) := by decide
/-- 2.7: GET_ALL with 2C48 answers 1234. -/
theorem test_get_all : afterwards (exec .getAll (busy .getAllRd .getAll 0x2C48#16 .ok)) (fun t => t.rsp) =
    some (some 0x00001234#32) := by decide
/-- 2.7: a read that fails with cause 01 answers 30010000. -/
theorem test_get_all_error : afterwards (exec .getAll (busy .getAllRd .getAll 0x2C48#16 (.err .nack 0#16)))
    (fun t => t.rsp) = some (some 0x30010000#32) := by decide
/-- 2.1. -/
theorem test_r2io : afterwards (exec (.r2io 0x0001#16) State.reset) (fun t => t.units.r2ioOut) = some 0x8000#16 := by decide
/-- 2.1. -/
theorem test_io2r : afterwards (exec (.io2r 0xBEEF#16) State.reset) (fun t => t.units.io2rOut) = some 0xF77D#16 := by decide
/-- 2.2. -/
theorem test_devaddr : afterwards (exec (.devaddr 2) State.reset) (fun t => t.units.devOut) = some (some 0x25#8) := by decide
/-- 2.2. -/
theorem test_devaddr_8 : afterwards (exec (.devaddr 8) State.reset) (fun t => t.units.devOut) = some none := by decide
/-- 2.8: an illegal word is answered F0000000 before construction too. -/
theorem test_illegal_answered : afterwards (step (offered State.reset 0#32 [])) (fun t => (t.rsp, t.cmd)) =
    some (some 0xF0000000#32, none) := by decide
/-- 2.8: SET 0, on before construction is refused before validation. -/
theorem test_set_before_construction : after (step (offered State.reset 0x21000000#32 [])) = none := by decide
/-- The word placed after reset runs. -/
theorem test_with_fetch_word : afterwards (step (State.reset.withFetchWord 32 0x10010002)) (fun t => (t.devAddr, t.phase)) =
    some (0x25#8, .initRd) := by decide


/-! ## Witnesses: the hypotheses of each obligation hold together somewhere -/

theorem test_ready {s : State} {w : PortWord} {i : Instr} (m : List Input) (hp : s.phase = .idle) (hs : s.sess = false)
    (hu : s.unitPort = none) (hd : decodeCommand w = .instr i) : (offered s w m).ready w i :=
  { port := rfl, decodes := hd, idle := hp, closed := hs, noUnit := hu }

theorem test_witness_Decoding : (Instr.init (-32768) 0xFF#8).wf = true ∧ (Instr.set 32767 false).wf = true ∧
    (Instr.setAll 0xFFFF#16).wf = true ∧ (Instr.get (-32768)).wf = true ∧ Instr.getAll.wf = true ∧
    (Instr.r2io 0#16).wf = true ∧ (Instr.io2r 0#16).wf = true ∧ (Instr.devaddr 32767).wf = true := by decide

theorem test_witness_Encoding : decode (.command 0x40000010#32) = .instr (.get 16) ∧
    decode (.unit (.devaddr 0x8000#16)) = .instr (.devaddr (-32768)) := by decide

theorem test_witness_CommandsAreSelected :
    0x10FF8000#32 &&& 0xFF000000#32 = 0x10000000#32 ∧ 0x2100FFFF#32 &&& 0xFEFF0000#32 = 0x20000000#32 ∧
    0x3000FFFF#32 &&& 0xFFFF0000#32 = 0x30000000#32 ∧ 0x40000000#32 &&& 0xFFFF0000#32 = 0x40000000#32 ∧
    0x50000000#32 &&& 0xFFFFFFFF#32 = 0x50000000#32 := by decide

theorem test_witness_IllegalWords : decodeCommand 0x00000000#32 = .illegal .reservedOpcode ∧
    (offered (board 0#16) 0x00000000#32 []).phase = .idle ∧ (offered (board 0#16) 0x00000000#32 []).sess = false ∧
    (offered (board 0#16) 0x00000000#32 []).unitPort = none ∧ (offered (board 0#16) 0x00000000#32 []).cmd = some 0#32 := by
  decide

theorem test_witness_StepRuns : (offered (board 0#16) 0x40000010#32 []).ready 0x40000010#32 (.get 16) :=
  test_ready _ rfl rfl rfl (by decide)

/-- Every phase outside IDLE, with an answer next. -/
theorem test_witness_StepResumes : ∀ p o, (busy p o 0#16 .ok).phase = p ∧ (busy p o 0#16 .ok).unitPort = none ∧
    (busy p o 0#16 .ok).inputs = .answer .ok :: [] := fun _ _ => ⟨rfl, rfl, rfl⟩

theorem test_witness_StepEvaluates : ∀ u, { State.reset with unitPort := some u }.unitPort = some u := fun _ => rfl

theorem test_witness_WordPlaced : decodeTableWord 32 0x50000000 = some .getAll ∧ decodeTableWord 16 0xFFFF = some (.r2io 0xFFFF#16) := by
  decide

/-- A second command waits while SET is in progress; the step of SET goes on, and SET is not the command of GET. -/
theorem test_witness_BusyBlock : (busy .setRd .set 0#16 .ok).phase ≠ .idle ∧
    (after (step { busy .setRd .set 0#16 .ok with cmd := some 0x50000000#32 })).isSome = true ∧
    Phase.setRd.command ≠ some .init ∧ Phase.setRd.command ≠ some .setAll ∧ Phase.setRd.command ≠ some .get ∧
    Phase.setRd.command ≠ some .getAll ∧ Phase.getRd.command ≠ some .set := by decide

/-- SET waits for its read while another master reads; and with no move at all. -/
theorem test_witness_CommandWaits :
    ∃ t, step { busy .setRd .set 0#16 .ok with inputs := [.masterRead 1#8 0x27#8 .input] } = .next t ∧
      step { busy .setRd .set 0#16 .ok with inputs := [] } = .next { busy .setRd .set 0#16 .ok with inputs := [] } :=
  ⟨_, rfl, rfl⟩

theorem test_witness_RemapTable : remapTable[0]? = some 0x8000#16 ∧ remapTable[15]? = some 0x0001#16 := by decide

theorem test_witness_RemapOfOneRelay : r2io 0x0001#16 = 0x8000#16 ∧ r2io 0x8000#16 = 0x0001#16 := by decide

theorem test_witness_StackLevels : devaddr 0 = some 0x27#8 ∧ devaddr 7 = some 0x20#8 ∧ devaddr (-1) = none ∧
    devaddr 8 = none ∧ 0x20#8 ≤ 0x20#8 ∧ 0x27#8 ≤ 0x27#8 := by decide

/-- INIT is accepted at stack levels 0 and 7 and rejected at -1 and 8, in an idle block without a Board. -/
theorem test_witness_InitAcceptance : (fresh 0#16).phase = .idle ∧ (fresh 0#16).constructed = false ∧
    (fresh 0#16).sess = false ∧ (0 : Int) ≤ 0 ∧ (7 : Int) ≤ 7 ∧ (-1 : Int) < 0 ∧ (7 : Int) < 8 := by decide

/-- Both answers, with CONFIGURATION zero and nonzero. -/
theorem test_witness_InitReadStep : ∀ a, (initing .initRd 1#16 a).phase = .initRd ∧ (initing .initRd 1#16 a).sess = true ∧
    (initing .initRd 1#16 a).inputs = .answer a :: [] := fun _ => ⟨rfl, rfl, rfl⟩

theorem test_witness_InitReadStep_configurations :
    (initing .initRd 1#16 .ok).device 1#8 0x27#8 .configuration = 1#16 ∧
    (initing .initRd 0#16 .ok).device 1#8 0x27#8 .configuration = 0#16 := by decide

theorem test_witness_InitWriteStep : ∀ a, (initing .initWr 1#16 a).phase = .initWr ∧ (initing .initWr 1#16 a).sess = true ∧
    (initing .initWr 1#16 a).inputs = .answer a :: [] := fun _ => ⟨rfl, rfl, rfl⟩

/-- INIT 0, 1 ready to run, before any moves `m`, with CONFIGURATION `cfg`; INIT 8, 1 and INIT -1, 1 too. -/
theorem test_witness_InitOutcomes (m : List Input) (cfg : Word) :
    (offered (fresh cfg) 0x10010000#32 m).ready 0x10010000#32 (.init 0 1#8) ∧
    (offered (fresh cfg) 0x10010008#32 m).ready 0x10010008#32 (.init 8 1#8) ∧
    (offered (fresh cfg) 0x1001FFFF#32 m).ready 0x1001FFFF#32 (.init (-1) 1#8) ∧
    (offered (fresh cfg) 0x10010000#32 m).constructed = false ∧ devaddr 0 = some 0x27#8 ∧
    (offered (fresh cfg) 0x10010000#32 m).inputs = m :=
  ⟨test_ready _ rfl rfl rfl (by decide), test_ready _ rfl rfl rfl (by decide), test_ready _ rfl rfl rfl (by decide), rfl,
    by decide, rfl⟩

theorem test_witness_InitOutcomes_configurations :
    (fresh 0x0000#16).device 1#8 0x27#8 .configuration = 0x0000#16 ∧
    (fresh 0x0001#16).device 1#8 0x27#8 .configuration ≠ 0x0000#16 := by decide

/-- The acceptance statements of SET, SET_ALL, GET and GET_ALL; relays 1 and 16 are legal, 0 and 17 are not. -/
theorem test_witness_Acceptance : (board 0#16).phase = .idle ∧ (board 0#16).constructed = true ∧ (board 0#16).sess = false ∧
    (1 : Int) ≤ 1 ∧ (16 : Int) ≤ 16 ∧ (0 : Int) < 1 ∧ (16 : Int) < 17 := by decide

/-- The read and write steps of SET, SET_ALL, GET and GET_ALL, with either answer. -/
theorem test_witness_Steps : ∀ p o a, (busy p o 0x1234#16 a).phase = p ∧ (busy p o 0x1234#16 a).sess = true ∧
    (busy p o 0x1234#16 a).inputs = .answer a :: [] := fun _ _ _ => ⟨rfl, rfl, rfl⟩

/-- SET 1, SET 16 (on), SET 0 and SET 17 ready to run before any moves. -/
theorem test_witness_SetOutcomes (m : List Input) :
    (offered (board 0x1234#16) 0x21000001#32 m).ready 0x21000001#32 (.set 1 true) ∧
    (offered (board 0x1234#16) 0x21000010#32 m).ready 0x21000010#32 (.set 16 true) ∧
    (offered (board 0x1234#16) 0x21000000#32 m).ready 0x21000000#32 (.set 0 true) ∧
    (offered (board 0x1234#16) 0x21000011#32 m).ready 0x21000011#32 (.set 17 true) ∧
    (offered (board 0x1234#16) 0x21000001#32 m).constructed = true ∧
    (offered (board 0x1234#16) 0x21000001#32 m).inputs = m :=
  ⟨test_ready _ rfl rfl rfl (by decide), test_ready _ rfl rfl rfl (by decide), test_ready _ rfl rfl rfl (by decide),
    test_ready _ rfl rfl rfl (by decide), rfl, rfl⟩

theorem test_witness_SetThenGet : decodeCommand 0x40000001#32 = .instr (.get 1) ∧
    decodeCommand 0x40000010#32 = .instr (.get 16) := by decide

theorem test_witness_SetAllOutcomes (m : List Input) :
    (offered (board 0#16) 0x3000FFFF#32 m).ready 0x3000FFFF#32 (.setAll 0xFFFF#16) ∧
    (offered (board 0#16) 0x3000FFFF#32 m).constructed = true ∧ (offered (board 0#16) 0x3000FFFF#32 m).inputs = m ∧
    decodeCommand 0x50000000#32 = .instr .getAll :=
  ⟨test_ready _ rfl rfl rfl (by decide), rfl, rfl, by decide⟩

theorem test_witness_GetOutcomes (m : List Input) :
    (offered (board 0x1234#16) 0x40000001#32 m).ready 0x40000001#32 (.get 1) ∧
    (offered (board 0x1234#16) 0x40000010#32 m).ready 0x40000010#32 (.get 16) ∧
    (offered (board 0x1234#16) 0x40000000#32 m).ready 0x40000000#32 (.get 0) ∧
    (offered (board 0x1234#16) 0x40000011#32 m).ready 0x40000011#32 (.get 17) ∧
    (offered (board 0x1234#16) 0x50000000#32 m).ready 0x50000000#32 .getAll ∧
    (offered (board 0x1234#16) 0x50000000#32 m).constructed = true ∧
    (offered (board 0x1234#16) 0x50000000#32 m).inputs = m :=
  ⟨test_ready _ rfl rfl rfl (by decide), test_ready _ rfl rfl rfl (by decide), test_ready _ rfl rfl rfl (by decide),
    test_ready _ rfl rfl rfl (by decide), test_ready _ rfl rfl rfl (by decide), rfl, rfl⟩

/-- GET_ALL's own words are above; the words of GET 1 and GET 16, on whose port the same state then stands. -/
theorem test_witness_GetAllOutcomes : decodeCommand 0x40000001#32 = .instr (.get (1 : Nat)) ∧
    decodeCommand 0x40000010#32 = .instr (.get (16 : Nat)) := by decide

/-- GET and GET_ALL answer a next state at acceptance and at the read. -/
theorem test_witness_ReadCommands : (after (exec (.get 16) (board 0x1234#16))).isSome = true ∧
    (after (exec .getAll (busy .getAllRd .getAll 0x1234#16 .ok))).isSome = true := by decide

theorem test_witness_Lifetime : (fresh 0#16).phase = .idle ∧ (fresh 0#16).constructed = false ∧
    (board 0#16).phase = .idle ∧ (board 0#16).constructed = true := by decide

theorem test_witness_CauseCodes : Cause.code (.other 0) = 0x04#8 ∧ Cause.code (.other 251) = 0xFF#8 ∧ 0xFF#8 ≠ 0x00#8 := by
  decide

theorem test_witness_ExceptionEntry : (busy .setRd .set 0#16 .ok).sess = true ∧ (board 0#16).sess = false ∧
    0x30010000#32 = (Exc.operationError .nack).status.setWidth 32 <<< 28 |||
      (Exc.operationError .nack).info.setWidth 32 <<< 16 := by decide

/-- The invariant holds of the Board, idle. -/
theorem test_board_inv : (board 0x1234#16).Inv where
  mem := by decide
  session := by decide
  op := nofun
  address := fun _ => by decide
  bit7 := by decide
  lifetime := nofun
  nonzero := nofun
  silent := fun h => absurd rfl h
  units := by unfold Units.consistent; decide

theorem test_units_consistent : State.reset.units.consistent := by unfold Units.consistent; decide

/-- And of the Board inside SET, with its write due. -/
theorem test_busy_inv (m : List Input) : { busy .setWr .set 0x1234#16 .ok with inputs := m }.Inv where
  mem := rfl
  session := rfl
  op := fun _ h => by cases h; rfl
  address := fun _ => (by decide : devaddr (0#3).toNat = some 0x27#8)
  bit7 := (by decide : (0x27#8).getLsbD 7 = false)
  lifetime := fun _ h => by cases h; exact ⟨nofun, fun _ => rfl⟩
  nonzero := nofun
  silent := fun _ => rfl
  units := test_units_consistent

/-- OneResponsePerCommand, BlockReachesOnlyItsTwoRegisters, BoardIsImmutableAfterConstruction, EveryStepKeepsTheInvariant: a step
of SET in progress, and one that takes a word off the port. -/
theorem test_witness_Inv : (busy .setWr .set 0x1234#16 .ok).Inv ∧ (busy .setWr .set 0x1234#16 .ok).unitPort = none ∧
    (after (step (busy .setWr .set 0x1234#16 .ok))).isSome = true ∧
    (busy .setWr .set 0x1234#16 .ok).inputs = [.answer .ok] ∧
    (after (step (offered (board 0x1234#16) 0x50000000#32 []))).isSome = true ∧
    (offered (board 0x1234#16) 0x50000000#32 []).cmd.isSome = true :=
  ⟨test_busy_inv _, rfl, by decide, rfl, by decide, rfl⟩

/-- BoardIsImmutableAfterConstruction: an accepted INIT changes the Board's registers. -/
theorem test_witness_BoardChanges : afterwards (step (offered (fresh 0#16) 0x10010003#32 [])) (fun t => t.stack) = some 3#3 ∧
    (fresh 0#16).stack ≠ 3#3 := by decide

theorem test_witness_WordWritten : (2 : Nat) ≠ 4 ∧ (2 : Nat) ≠ 4 + 1 := by decide

/-- Two registers of one device, and one register of two devices on one bus. -/
theorem test_witness_DeviceRegisters : ((1#8 : Byte), (0x27#8 : Byte), Reg.output) ≠ (1#8, 0x27#8, .configuration) ∧
    ((1#8 : Byte), (0x27#8 : Byte), Reg.output) ≠ (1#8, 0x26#8, .output) ∧ (1 : Nat) < 2 := by decide

/-- A step in each write phase, and one in a phase that writes nothing. -/
theorem test_witness_Frame : (after (exec (.init 0 1#8) (initing .initWr 1#16 .ok))).isSome = true ∧
    (after (exec (.set 1 true) (busy .setWr .set 0#16 .ok))).isSome = true ∧
    (after (exec (.setAll 1#16) (busy .setAllWr .setAll 0#16 .ok))).isSome = true ∧
    (after (exec (.r2io 1#16) (busy .getRd .get 0#16 .ok))).isSome = true := by decide

theorem test_witness_FailedWrite : ∀ c left,
    (initing .initWr 1#16 (.err c left)).unitPort = none ∧
    (initing .initWr 1#16 (.err c left)).inputs = .answer (.err c left) :: [] ∧
    (initing .initWr 1#16 (.err c left)).phase = .initWr ∧
    (busy .setWr .set 0#16 (.err c left)).inputs = .answer (.err c left) :: [] ∧
    (busy .setAllWr .setAll 0#16 (.err c left)).phase = .setAllWr := fun _ _ => ⟨rfl, rfl, rfl, rfl, rfl⟩

/-- An outside move when nothing else is due, in IDLE and inside SET. -/
theorem test_witness_Moves : ∀ x : Input,
    { board 0#16 with inputs := [x] }.unitPort = none ∧ { board 0#16 with inputs := [x] }.cmd = none ∧
    { board 0#16 with inputs := [x] }.inputs = x :: [] ∧
    { busy .setWr .set 0#16 .ok with inputs := [x] }.phase ≠ .idle ∧
    { busy .setWr .set 0#16 .ok with inputs := [x] }.inputs = x :: [] := fun _ => ⟨rfl, rfl, rfl, nofun, rfl⟩

/-- PowerCycleIsNotNoticed: the bytes just below and just above a device's four registers. -/
theorem test_witness_PowerCycle : 75519 < regAddr 1#8 0x27#8 .input ∧ regAddr 1#8 0x27#8 .input + 8 ≤ 75528 := by decide

/-- A relay on an output line and one on an input line; an INIT that constructs the Board. -/
theorem test_witness_Relays : ((fresh 0x7FFF#16).device 1#8 0x27#8 .configuration).getLsbD (16 - 1) = false ∧
    ((fresh 0x7FFF#16).device 1#8 0x27#8 .configuration).getLsbD (16 - 16) = true ∧
    afterwards (exec (.init 0 1#8) (initing .initWr 1#16 .ok)) (fun t => t.constructed) = some true ∧
    (initing .initWr 1#16 .ok).constructed = false := by decide

/-- Two different states with one live view. -/
theorem test_witness_DeadRegisters : { board 0#16 with tmp := 5#16 }.live = (board 0#16).live ∧
    { board 0#16 with tmp := 5#16 } ≠ board 0#16 := by decide

/-- SET with its write due, another master's write and two answers to come. -/
theorem test_witness_AnsweredCommands :
    { busy .setWr .set 0x1234#16 .ok with
      inputs := [.masterWrite 1#8 0x27#8 .output 3#16, .answer .ok, .answer .ok] }.Inv ∧
    (∀ x ∈ [Input.masterWrite 1#8 0x27#8 .output 3#16, .answer .ok, .answer .ok], x.deviceSide = true) ∧
    2 ≤ [Input.masterWrite 1#8 0x27#8 .output 3#16, .answer .ok, .answer .ok].countP Input.isAnswer :=
  ⟨test_busy_inv _, by decide, by decide⟩

end Sys2Proof.Machine.Tests
end

section
/-! PROOFS. The device registers: their addresses (R28, R36), reading after a word is written (R55, R60), and the relays they
drive (R32). -/

namespace Sys2Proof.Machine

/-! ### Addresses -/

/-- The four registers stand at even offsets below 8. -/
theorem Reg.offset_even (r : Reg) : r.offset.toNat % 2 = 0 ∧ r.offset.toNat < 8 := by
  cases r <;> decide

theorem Reg.offset_toNat_inj {r₁ r₂ : Reg} (h : r₁.offset.toNat = r₂.offset.toNat) : r₁ = r₂ := by
  revert h
  cases r₁ <;> cases r₂ <;> decide

/-- A byte of a device register belongs to one bus, one device and one register only. -/
theorem regAddr_byte_inj {b₁ b₂ d₁ d₂ : Byte} {r₁ r₂ : Reg} {i j : Nat} (hi : i < 2) (hj : j < 2)
    (h : regAddr b₁ d₁ r₁ + i = regAddr b₂ d₂ r₂ + j) : b₁ = b₂ ∧ d₁ = d₂ ∧ r₁ = r₂ := by
  unfold regAddr at h
  have hd₁ := d₁.isLt
  have hd₂ := d₂.isLt
  have ho₁ := r₁.offset_even
  have ho₂ := r₂.offset_even
  have hb : b₁.toNat = b₂.toNat := by omega
  have hd : d₁.toNat = d₂.toNat := by omega
  have ho : r₁.offset.toNat = r₂.offset.toNat := by omega
  exact ⟨BitVec.eq_of_toNat_eq hb, BitVec.eq_of_toNat_eq hd, Reg.offset_toNat_inj ho⟩

/-- Settles O47: two registers with a byte in common agree in bus, device address and register. -/
theorem deviceRegistersAreApart : Obligations.DeviceRegistersAreApart := by
  unfold Obligations.DeviceRegistersAreApart
  intro b₁ b₂ d₁ d₂ r₁ r₂ hne i j hi hj h
  obtain ⟨rfl, rfl, rfl⟩ := regAddr_byte_inj hi hj h
  exact hne rfl

/-! ### Reading after writing a word -/

/-- A word is its two bytes put together. -/
theorem word_of_bytes (v : Word) :
    (v.extractLsb' 8 8).setWidth 16 <<< 8 ||| (v.extractLsb' 0 8).setWidth 16 = v := by
  apply BitVec.eq_of_getLsbD_eq
  intro i hi
  by_cases h : i < 8
  · simp [h, hi]
  · simp [h, hi, show i - 8 < 8 by omega, show 8 + (i - 8) = i by omega]

@[simp] theorem Memory.readWord_writeWord_self (m : Memory) (k : Nat) (v : Word) : (m.writeWord k v).readWord k = v := by
  simp [Memory.readWord, Memory.writeWord, Memory.readByte_put_other, word_of_bytes]

theorem Memory.readByte_writeWord_other (m : Memory) {k j : Nat} (v : Word) (h₀ : j ≠ k) (h₁ : j ≠ k + 1) :
    (m.writeWord k v).readByte j = m.readByte j := by
  simp [Memory.writeWord, Memory.readByte_put_other, h₀, h₁]

/-- A word written to one device register leaves what every other device register reads. -/
theorem Memory.readWord_writeWord_regAddr_other (m : Memory) {b₁ b₂ d₁ d₂ : Byte} {r₁ r₂ : Reg} (v : Word)
    (hne : (b₁, d₁, r₁) ≠ (b₂, d₂, r₂)) :
    (m.writeWord (regAddr b₂ d₂ r₂) v).readWord (regAddr b₁ d₁ r₁) = m.readWord (regAddr b₁ d₁ r₁) := by
  have apart := deviceRegistersAreApart b₁ b₂ d₁ d₂ r₁ r₂ hne
  have byte : ∀ i < 2, (m.writeWord (regAddr b₂ d₂ r₂) v).readByte (regAddr b₁ d₁ r₁ + i) =
      m.readByte (regAddr b₁ d₁ r₁ + i) := fun i hi =>
    readByte_writeWord_other m v (by simpa using apart i 0 hi (by decide)) (apart i 1 hi (by decide))
  have low := byte 0 (by decide)
  rw [Nat.add_zero] at low
  rw [Memory.readWord, Memory.readWord, byte 1 (by decide), low]

@[simp] theorem device_setDevice_self (s : State) (bus dev : Byte) (reg : Reg) (v : Word) :
    (s.setDevice bus dev reg v).device bus dev reg = v :=
  Memory.readWord_writeWord_self _ _ _

theorem sameBytesBut_setDevice (s : State) (bus dev : Byte) (reg : Reg) (v : Word) :
    s.sameBytesBut (s.setDevice bus dev reg v) (regAddr bus dev reg) :=
  fun _ h₀ h₁ => Memory.readByte_writeWord_other _ v h₀ h₁

/-! ### The relays -/

theorem relay_of_output {s : State} {bus dev : Byte} {r : Nat}
    (h : (s.device bus dev .configuration).getLsbD (16 - r) = false) :
    s.relay bus dev r = some ((s.device bus dev .output).getLsbD (16 - r)) := by
  simp [State.relay, relayLine, h]

theorem relay_of_input {s : State} {bus dev : Byte} {r : Nat}
    (h : (s.device bus dev .configuration).getLsbD (16 - r) = true) : s.relay bus dev r = none := by
  simp [State.relay, relayLine, h]

/-- The only steps of an instruction that construct the Board are INIT's read of a zero and INIT's write (R142, R143): each
leaves CONFIGURATION zero and OUTPUT as it was. -/
theorem Transition.device_of_constructs {i : Instr} {s t : State} (h : Transition i s t) (hs : s.constructed = false)
    (ht : t.constructed = true) :
    t.device s.busId s.devAddr .configuration = 0x0000#16 ∧
      t.device s.busId s.devAddr .output = s.device s.busId s.devAddr .output := by
  cases h
  case initReadZero word => exact ⟨by simpa [State.device, State.target] using word, by simp [State.device]⟩
  case initWriteOk =>
    constructor
    · simp [State.device, State.target]
    · simpa [State.device, State.target] using Memory.readWord_writeWord_regAddr_other s.mem 0x0000#16 (by simp)
  all_goals simp [hs] at ht

/-- Settles O56: INIT constructs the Board with CONFIGURATION zero, so that every relay's line is an output. -/
theorem relaysFollowOutputAfterInit : Obligations.RelaysFollowOutputAfterInit := by
  unfold Obligations.RelaysFollowOutputAfterInit
  refine ⟨fun s bus dev r _ _ => ⟨relay_of_output, relay_of_input⟩, fun s t stack bus h ht hs => ?_⟩
  obtain ⟨hcfg, hout⟩ := (exec_next h).device_of_constructs hs ht
  refine ⟨hout, fun r _ _ => ?_⟩
  rw [← hout]
  exact relay_of_output (by simp [hcfg])

end Sys2Proof.Machine
end

section
/-! PROOFS. What is due when the transport answers or the outside world moves (R20, R24, R62), and what a step can do, said
once for every kind of step. -/

namespace Sys2Proof.Machine

theorem inProgress_eq_none_iff (s : State) : s.inProgress = none ↔ s.phase = .idle := by
  unfold State.inProgress
  cases s.phase <;> simp

/-- The transport's answer resumes the command in progress. -/
theorem step_of_answer {s : State} {a : Answer} {rest : List Input} {i : Instr} (hu : s.unitPort = none)
    (ha : s.inputs = .answer a :: rest) (hi : s.inProgress = some i) : step s = exec i s :=
  step_of_run (by simp [State.due, hu, hi, ha])

/-- With no unit input, no command to accept and no answer to take, the outside world moves. -/
theorem step_of_move {s : State} (hu : s.unitPort = none) (hc : s.phase = .idle → s.cmd = none)
    (ha : ∀ a rest, s.inputs ≠ .answer a :: rest) : step s = s.envStep := by
  apply step_of_environment
  rcases due_cases s with ⟨u, h, -⟩ | ⟨i, a, rest, -, -, h, -⟩ | ⟨w, i, -, hp, h, -⟩ | ⟨w, why, -, hp, h, -⟩ | ⟨-, -, -, h⟩
  · simp [hu] at h
  · exact absurd h (ha a rest)
  · simp [hc hp] at h
  · simp [hc hp] at h
  · exact h

/-- Settles O7: `inProgress` names the command of each phase. -/
theorem stepResumesTheCommandInProgress : Obligations.StepResumesTheCommandInProgress := by
  unfold Obligations.StepResumesTheCommandInProgress
  intro s a rest hu ha
  refine ⟨fun hp => ?_, fun hp => ?_, fun hp => ?_, fun hp => ?_, fun hp => ?_⟩
  · exact step_of_answer hu ha (by rcases hp with hp | hp <;> simp [State.inProgress, hp])
  · exact step_of_answer hu ha (by rcases hp with hp | hp <;> simp [State.inProgress, hp])
  all_goals exact step_of_answer hu ha (by simp [State.inProgress, hp])

/-- Settles O54: the outside world's move is the transaction, and a write is `setDevice`. -/
theorem otherMastersReachOnlyTheDevice : Obligations.OtherMastersReachOnlyTheDevice := by
  unfold Obligations.OtherMastersReachOnlyTheDevice
  intro s bus dev reg rest hu hc
  refine ⟨fun h => ?_, fun v h => ?_⟩
  · rw [step_of_move hu hc (by simp [h]), State.envStep, h]
  · refine ⟨{ s with inputs := rest }.setDevice bus dev reg v, ?_, rfl, ?_, sameBytesBut_setDevice s bus dev reg v⟩
    · rw [step_of_move hu hc (by simp [h]), State.envStep, h]
    · rw [device_setDevice_self]

theorem setDevice_mem_wf (s : State) (bus dev : Byte) (reg : Reg) (v : Word) (h : s.mem.wf = true) :
    (s.setDevice bus dev reg v).mem.wf = true :=
  Memory.wf_writeWord _ _ _ h

/-- A power cycle changes nothing but the memory. -/
theorem powerCycle_eq (s : State) (bus dev : Byte) (o p c i : Word) :
    s.powerCycle bus dev o p c i = { s with mem := (s.powerCycle bus dev o p c i).mem } := by
  simp only [State.powerCycle, State.setDevice]

theorem powerCycle_mem_wf (s : State) (bus dev : Byte) (o p c i : Word) (h : s.mem.wf = true) :
    (s.powerCycle bus dev o p c i).mem.wf = true :=
  setDevice_mem_wf _ _ _ _ _ (setDevice_mem_wf _ _ _ _ _ (setDevice_mem_wf _ _ _ _ _ (setDevice_mem_wf s _ _ _ _ h)))

/-- What a move of the outside world can do: reset the block, or change the ports, the coming moves and the device's memory,
which keeps its canonical form. -/
theorem envStep_cases {s t : State} (h : s.envStep = .next t) :
    (∃ u f rest, s.inputs = .blockReset u f :: rest ∧ t = { s with inputs := rest }.blockReset u f) ∨
    ∃ c u rest m, t = { s with cmd := c, unitPort := u, inputs := rest, mem := m } ∧ (s.mem.wf = true → m.wf = true) := by
  unfold State.envStep at h
  split at h
  case h_9 u f rest hi => cases h; exact .inl ⟨u, f, rest, hi, rfl⟩
  case h_2 =>
    split at h <;> cases h
    exact .inr ⟨_, _, _, _, rfl, id⟩
  case h_6 bus dev reg v rest _ => cases h; exact .inr ⟨_, _, _, _, rfl, setDevice_mem_wf s bus dev reg v⟩
  case h_7 bus dev o p c i rest _ => cases h; exact .inr ⟨_, _, _, _, powerCycle_eq .., powerCycle_mem_wf _ bus dev o p c i⟩
  case h_8 bus dev v rest _ => cases h; exact .inr ⟨_, _, _, _, rfl, setDevice_mem_wf s bus dev .input v⟩
  all_goals cases h; exact .inr ⟨_, _, _, _, rfl, id⟩

/-- What a step can do: an instruction's transition once its word or input is taken off the port, the answer ILLEGAL of an idle
block, or a move of the outside world. -/
theorem step_cases {s t : State} (h : step s = .next t) :
    (∃ i c u, Transition i { s with cmd := c, unitPort := u } t) ∨
    (s.phase = .idle ∧ ∃ c, t = { s with cmd := c }.raise .illegal) ∨
    s.envStep = .next t := by
  rcases due_cases s with ⟨u, -, hd⟩ | ⟨i, a, rest, -, -, -, hd⟩ | ⟨w, i, -, -, -, -, hd⟩ | ⟨w, why, -, hp, -, -, hd⟩ |
    ⟨-, -, -, hd⟩
  · rw [step_of_run hd] at h; exact .inl ⟨_, s.cmd, none, exec_next h⟩
  · rw [step_of_run hd] at h; exact .inl ⟨_, s.cmd, s.unitPort, exec_next h⟩
  · rw [step_of_run hd] at h; exact .inl ⟨_, none, s.unitPort, exec_next h⟩
  · rw [step_of_illegal hd] at h; cases h; exact .inr (.inl ⟨hp, none, rfl⟩)
  · rw [step_of_environment hd] at h; exact .inr (.inr h)

end Sys2Proof.Machine
end

section
/-! PROOFS. The invariant holds after reset and every step keeps it; the Board is immutable after construction (R22 to R26,
R40). -/

namespace Sys2Proof.Machine

/-- Settles O52: `State.reset` names the three values. -/
theorem resetValues : Obligations.ResetValues := ⟨rfl, rfl, rfl⟩

/-- Settles O57: in IDLE without a Board only the memory, bit 7 of DEV_ADDR and the units' ports say anything. -/
theorem resetMeetsTheInvariant : Obligations.ResetMeetsTheInvariant where
  mem := reset_mem_wf
  session := by decide
  op := nofun
  address h := absurd h (by decide)
  bit7 := by decide
  lifetime := nofun
  nonzero := nofun
  silent h := absurd rfl h
  units := by unfold Units.consistent; decide

/-! ### DEVADDR -/

theorem devaddr_of_legal {x : Int} (h₀ : 0 ≤ x) (h₇ : x ≤ 7) :
    devaddr x = some (baseAddress + (stackMask ^^^ BitVec.ofInt 8 x)) := by
  rw [devaddr, if_neg (by omega)]

theorem legal_of_devaddr {x : Int} {a : Byte} (h : devaddr x = some a) : 0 ≤ x ∧ x ≤ 7 := by
  unfold devaddr at h
  split at h
  · cases h
  · omega

/-- STACK latches a legal stack level exactly. -/
theorem stack_toNat_of_devaddr {x : Int} {a : Byte} (h : devaddr x = some a) : ((BitVec.ofInt 3 x).toNat : Int) = x := by
  obtain ⟨h₀, h₇⟩ := legal_of_devaddr h
  rw [BitVec.toNat_ofInt]
  omega

/-- Bit 7 of a device address is 0 (R22, R58). -/
theorem bit7_of_devaddr {x : Int} {a : Byte} (h : devaddr x = some a) : a.getLsbD 7 = false := by
  obtain ⟨h₀, h₇⟩ := legal_of_devaddr h
  rw [devaddr_of_legal h₀ h₇] at h
  cases h
  interval_cases x <;> decide

/-! ### The invariant over the state's operations -/

theorem Phase.ne_idle_of_command {p : Phase} {o : Op} (h : p.command = some o) : p ≠ .idle := by
  rintro rfl
  cases h

namespace State.Inv

variable {s : State}

/-- The command port, the units' input port, the coming moves, and a memory in canonical form are free. -/
theorem setPorts (h : s.Inv) (c : Option PortWord) (u : Option UnitInput) (rest : List Input) {m : Memory}
    (hm : m.wf = true) : { s with cmd := c, unitPort := u, inputs := rest, mem := m }.Inv :=
  { h with mem := hm }

theorem answered (h : s.Inv) (r : BusRecord) : (s.answered r).Inv := { h with }

theorem setUnits (h : s.Inv) {u : Units} (hu : u.consistent) : { s with units := u }.Inv := { h with units := hu }

/-- The invariant of an idle block speaks of the memory, the session, the Board and the units only. -/
theorem of_idle {t : State} (hp : t.phase = .idle) (hm : t.mem.wf = true) (hs : t.sess = false)
    (ha : t.constructed = true → devaddr t.stack.toNat = some t.devAddr) (h7 : t.devAddr.getLsbD 7 = false)
    (hu : t.units.consistent) : t.Inv where
  mem := hm
  session := by simp [hp, hs]
  op := by simp [hp, Phase.command]
  address h := ha (by simpa [hp] using h)
  bit7 := h7
  lifetime := by simp [hp, Phase.command]
  nonzero := by simp [hp]
  silent := by simp [hp]
  units := hu

theorem raise (h : s.Inv) (e : Exc) : (s.raise e).Inv :=
  of_idle rfl (by simpa using h.mem) (by simp) (by simpa using fun hc => h.address (.inl hc)) (by simpa using h.bit7)
    (by simpa using h.units)

theorem returnOk (h : s.Inv) (d : Word) : (s.returnOk d).Inv :=
  of_idle rfl (by simpa using h.mem) (by simp) (by simpa using fun hc => h.address (.inl hc)) (by simpa using h.bit7)
    (by simpa using h.units)

/-- A successful INIT ends with the Board constructed at the address latched at its acceptance. -/
theorem construct (h : s.Inv) (hb : s.phase ≠ .idle) (d : Word) : ({ s with constructed := true }.returnOk d).Inv :=
  of_idle rfl (by simpa using h.mem) (by simp) (by simpa using h.address (.inr hb)) (by simpa using h.bit7)
    (by simpa using h.units)

/-- The read step of SET or INIT moves on to the write step of the same command. -/
theorem toWrite (h : s.Inv) {o : Op} {p : Phase} (hs : s.phase.command = some o) (hp : p.command = some o) {w : Word}
    (hw : p = .initWr → w ≠ 0x0000#16) : { s with tmp := w, phase := p }.Inv :=
  have hb := Phase.ne_idle_of_command hs
  { h with
    session := by simpa [hb, Phase.ne_idle_of_command hp] using h.session
    op := fun q hq => h.op q (by rw [hs, ← hp, hq])
    address := fun _ => h.address (.inr hb)
    lifetime := fun q hq => h.lifetime q (by rw [hs, ← hp, hq])
    nonzero := hw
    silent := fun _ => h.silent hb }

/-- An accepted command starts, with the Board's address that of its stack level. -/
theorem of_startCommand (hm : s.mem.wf = true) (hu : s.units.consistent) (ha : devaddr s.stack.toNat = some s.devAddr)
    {o : Op} {p : Phase} (hp : p.command = some o) (hw : p ≠ .initWr) (hc : s.constructed = true ↔ o ≠ .init) :
    (s.startCommand o p).Inv where
  mem := hm
  session := by simp [Phase.ne_idle_of_command hp]
  op := by simp [hp]
  address _ := ha
  bit7 := bit7_of_devaddr ha
  lifetime := by simpa [hp] using hc
  nonzero := by simp [hw]
  silent _ := rfl
  units := hu

/-- INIT is accepted with a legal stack level while no Board is constructed. -/
theorem acceptInit (h : s.Inv) (hc : s.constructed = false) {stack : Int} {dev : Byte} (legal : devaddr stack = some dev)
    (bus : Byte) :
    ({ s with stack := BitVec.ofInt 3 stack, busId := bus, devAddr := dev }.startCommand .init .initRd).Inv := by
  have ha : devaddr (BitVec.ofInt 3 stack).toNat = some dev := by rw [stack_toNat_of_devaddr legal, legal]
  refine of_startCommand ?_ ?_ ?_ rfl (by decide) ?_
  · exact h.mem
  · exact h.units
  · exact ha
  · simp [hc]

/-- Every other command is accepted by the constructed Board, whatever operands it latches. -/
theorem acceptOther (h : s.Inv) (hc : s.constructed = true) (o : Op) (p : Phase) (hp : p.command = some o) (ho : o ≠ .init)
    (a : BitVec 4) (f : Bool) (d : Word) : ({ s with arg := a, flag := f, data := d }.startCommand o p).Inv := by
  have hw : p ≠ .initWr := by
    rintro rfl
    exact ho (Option.some.inj hp).symm
  refine of_startCommand ?_ ?_ ?_ hp hw ?_
  · exact h.mem
  · exact h.units
  · exact h.address (.inl hc)
  · simp [hc, ho]

theorem blockReset (h : s.Inv) (u : Unspecified) (f : Option Word) : (s.blockReset u f).Inv := by
  have hm : (s.abandon f).mem.wf = true := by
    unfold State.abandon
    split
    · exact Memory.wf_writeWord _ _ _ h.mem
    · exact h.mem
    · exact h.mem
  have hu : (s.abandon f).units = s.units := by
    unfold State.abandon
    split <;> rfl
  refine of_idle rfl (by simpa [State.blockReset] using hm) (by simp [State.blockReset]) (by simp [State.blockReset]) ?_ ?_
  · simp [State.blockReset]
  · simpa [State.blockReset, hu] using h.units

end State.Inv

/-- Every transition of an instruction keeps the invariant. -/
theorem Transition.inv {i : Instr} {s t : State} (h : Transition i s t) (hi : s.Inv) : t.Inv := by
  have write (k : Nat) (v : Word) : { s with mem := s.mem.writeWord k v }.Inv :=
    hi.setPorts s.cmd s.unitPort s.inputs (Memory.wf_writeWord _ _ _ hi.mem)
  cases h
  case r2io => exact hi.setUnits ⟨rfl, hi.units.2⟩
  case io2r => exact hi.setUnits ⟨hi.units.1, rfl, hi.units.2.2⟩
  case devaddr => exact hi.setUnits ⟨hi.units.1, hi.units.2.1, rfl⟩
  case wait => exact hi
  case reject => exact hi.raise _
  case acceptInit legal _ hc => exact hi.acceptInit hc legal _
  case acceptSet _ hc => exact hi.acceptOther hc .set .setRd rfl nofun _ _ _
  case acceptSetAll hc => exact hi.acceptOther hc .setAll .setAllWr rfl nofun _ _ _
  case acceptGet _ hc => exact hi.acceptOther hc .get .getRd rfl nofun _ _ _
  case acceptGetAll hc => exact hi.acceptOther hc .getAll .getAllRd rfl nofun _ _ _
  case readErr => exact (hi.answered _).raise _
  case writeErr => exact ((write _ _).answered _).raise _
  case initReadZero hp _ => exact (hi.answered _).construct (by simp [hp]) _
  case initReadNonzero hw _ hp _ => exact (hi.answered _).toWrite (by simp [hp, Phase.command]) rfl (fun _ => hw)
  case initWriteOk hp => exact ((write _ _).answered _).construct (by simp [hp]) _
  case setReadOk hp _ => exact (hi.answered _).toWrite (by simp [hp, Phase.command]) rfl nofun
  case writeOutputOk => exact ((write _ _).answered _).returnOk _
  case getReadOk => exact (hi.answered _).returnOk _

/-- Settles O58, over the three kinds of step that `step_cases` lists. -/
theorem everyStepKeepsTheInvariant : Obligations.EveryStepKeepsTheInvariant := by
  unfold Obligations.EveryStepKeepsTheInvariant
  intro s t hi h
  rcases step_cases h with ⟨i, c, u, h⟩ | ⟨-, c, rfl⟩ | h
  · exact h.inv (hi.setPorts c u s.inputs hi.mem)
  · exact (hi.setPorts c s.unitPort s.inputs hi.mem).raise _
  · rcases envStep_cases h with ⟨u, f, rest, -, rfl⟩ | ⟨c, u, rest, m, rfl, hm⟩
    · exact (hi.setPorts s.cmd s.unitPort rest hi.mem).blockReset u f
    · exact hi.setPorts c u rest (hm hi.mem)

/-! ### The Board -/

/-- An instruction's step never unmakes the Board. -/
theorem Transition.constructed_mono {i : Instr} {s t : State} (h : Transition i s t) (hc : s.constructed = true) :
    t.constructed = true := by
  cases h <;> simp [hc]

/-- An instruction's step leaves STACK, BUS_ID and DEV_ADDR, unless it accepts INIT. -/
theorem Transition.board_eq_or_accepts {i : Instr} {s t : State} (h : Transition i s t) :
    (t.stack, t.busId, t.devAddr) = (s.stack, s.busId, s.devAddr) ∨
    (s.constructed = false ∧ s.phase = .idle ∧ t.phase = .initRd) := by
  cases h
  case acceptInit idle hc => exact .inr ⟨hc, idle, rfl⟩
  all_goals exact .inl (by simp)

/-- Settles O51: only the acceptance of INIT changes the Board's registers, and the invariant gives the new address. -/
theorem boardIsImmutableAfterConstruction : Obligations.BoardIsImmutableAfterConstruction := by
  unfold Obligations.BoardIsImmutableAfterConstruction
  intro s t hi hr h
  rcases step_cases h with ⟨i, c, u, ht⟩ | ⟨-, c, rfl⟩ | he
  · refine ⟨ht.constructed_mono, fun hne => ?_⟩
    obtain ⟨hc, hp, htp⟩ := ht.board_eq_or_accepts.resolve_left hne
    exact ⟨hc, hp, htp, (everyStepKeepsTheInvariant s t hi h).address (.inr (by simp [htp]))⟩
  · exact ⟨by simp, fun hne => absurd (by simp) hne⟩
  · rcases envStep_cases he with ⟨u, f, rest, hin, -⟩ | ⟨c, u, rest, m, rfl, -⟩
    · exact absurd hin (hr u f rest)
    · exact ⟨id, fun hne => absurd rfl hne⟩

end Sys2Proof.Machine
end

section
/-! PROOFS. No step depends on a dead register (R23, R25). The live view `State.live` is itself a state, so the claim is that a
step from the live view and a step from the state have the same outcome up to live views; one lemma per operation. -/

namespace Sys2Proof.Machine

/-- An outcome up to dead registers. -/
def liveOutcome : Host.Outcome State Fault Refusal → Host.Outcome State Fault Refusal
  | .next s => .next s.live
  | .fault f => .fault f
  | .refused r => .refused r

@[simp] theorem liveOutcome_next (s : State) : liveOutcome (.next s) = .next s.live := rfl
@[simp] theorem liveOutcome_refused (r : Refusal) : liveOutcome (.refused r) = .refused r := rfl

theorem sameOutcome_iff_liveOutcome_eq (o p : Host.Outcome State Fault Refusal) :
    sameOutcome (fun s t => s.live = t.live) o p ↔ liveOutcome o = liveOutcome p := by
  cases o <;> cases p <;> simp [sameOutcome, liveOutcome]

/-- A transaction's outcome up to dead registers. -/
def Txn.live {α : Type} : Txn α → Txn α
  | .waiting => .waiting
  | .ok a s => .ok a s.live
  | .err c s => .err c s.live

/-- What is due, up to dead registers. -/
def Due.live : Due → Due
  | .run i s => .run i s.live
  | .illegal s => .illegal s.live
  | .environment => .environment

variable (s : State)

/-! ### The live view's registers -/

@[simp] theorem live_constructed : s.live.constructed = s.constructed := rfl
@[simp] theorem live_phase : s.live.phase = s.phase := rfl
@[simp] theorem live_mem : s.live.mem = s.mem := rfl
@[simp] theorem live_cmd : s.live.cmd = s.cmd := rfl
@[simp] theorem live_unitPort : s.live.unitPort = s.unitPort := rfl
@[simp] theorem live_inputs : s.live.inputs = s.inputs := rfl

theorem live_devAddr_of_busy {s : State} (hb : s.phase ≠ .idle) : s.live.devAddr = s.devAddr := by
  simp [State.live, hb]

theorem live_target_of_busy {s : State} (hb : s.phase ≠ .idle) (reg : Reg) : s.live.target reg = s.target reg := by
  simp [State.target, State.live, hb]

@[simp] theorem live_live : s.live.live = s.live := by
  simp +contextual [State.live]

/-- The ports, the coming moves and the memory are live and make no register live or dead. -/
theorem live_setPorts_live (c : Option PortWord) (u : Option UnitInput) (rest : List Input) (m : Memory) :
    { s.live with cmd := c, unitPort := u, inputs := rest, mem := m }.live =
      { s with cmd := c, unitPort := u, inputs := rest, mem := m }.live :=
  live_live { s with cmd := c, unitPort := u, inputs := rest, mem := m }

theorem inProgress_live : s.live.inProgress = s.inProgress := by
  unfold State.inProgress
  cases hp : s.phase <;> simp [State.live, hp]

/-! ### The operations on the live view -/

theorem closeSession_live : s.live.closeSession = s.closeSession.live := by
  cases hs : s.sess with
  | false => rw [closeSession_of_closed hs, closeSession_of_closed (s := s.live) hs]
  | true => rw [closeSession_of_open hs, closeSession_of_open (s := s.live) hs]; rfl

/-- A block that has ended its command keeps of the Board's registers those of a constructed Board. -/
theorem live_end_live (r : PortWord) :
    { s.live with rsp := some r, phase := .idle }.live = { s with rsp := some r, phase := .idle }.live := by
  cases hc : s.constructed <;> simp [State.live, hc]

@[simp] theorem live_raise_live (e : Exc) : (s.live.raise e).live = (s.raise e).live := by
  unfold State.raise
  rw [closeSession_live, live_end_live]

@[simp] theorem live_returnOk_live (d : Word) : (s.live.returnOk d).live = (s.returnOk d).live := by
  unfold State.returnOk
  rw [closeSession_live, live_end_live]

/-- INIT's success makes STACK, BUS_ID and DEV_ADDR those of the Board, which are live from INIT's acceptance on. -/
theorem live_construct_live {s : State} (hb : s.phase ≠ .idle) (d : Word) :
    ({ s.live with constructed := true }.returnOk d).live = ({ s with constructed := true }.returnOk d).live := by
  have h : { s.live with constructed := true } = { s with constructed := true }.live := by simp [State.live, hb]
  rw [h, live_returnOk_live]

theorem memRead_live {s : State} (hb : s.phase ≠ .idle) (reg : Reg) : s.live.memRead reg = (s.memRead reg).live := by
  simp only [State.memRead, live_inputs, live_mem, live_target_of_busy hb, live_devAddr_of_busy hb]
  split <;> rfl

theorem memWrite_live {s : State} (hb : s.phase ≠ .idle) (reg : Reg) (v : Word) :
    s.live.memWrite reg v = (s.memWrite reg v).live := by
  simp only [State.memWrite, live_inputs, live_target_of_busy hb]
  split <;> simp only [Txn.live, State.answered, State.live, ne_eq, hb, not_false_eq_true, or_true, if_true] <;> rfl

/-! ### INIT -/

theorem initAccept_live (stack : Int) (bus : Byte) :
    liveOutcome (initAccept stack bus s.live) = liveOutcome (initAccept stack bus s) := by
  rw [initAccept, initAccept, live_constructed]
  split
  · rfl
  · split
    · simp
    · rfl

theorem initRead_live {s : State} (hp : s.phase = .initRd) : liveOutcome (initRead s.live) = liveOutcome (initRead s) := by
  have hb : s.phase ≠ .idle := by simp [hp]
  rw [initRead, initRead, memRead_live hb]
  rcases memRead_cases s .configuration with ⟨e, -⟩ | ⟨c, -, -, -, e⟩ | ⟨-, -, e⟩ <;> simp only [e, Txn.live]
  · simp
  · simp
  · split
    · exact congrArg Host.Outcome.next (live_construct_live (s := s.answered _) hb _)
    · simp [State.live, hp]

theorem initWrite_live {s : State} (hp : s.phase = .initWr) : liveOutcome (initWrite s.live) = liveOutcome (initWrite s) := by
  have hb : s.phase ≠ .idle := by simp [hp]
  rw [initWrite, initWrite, memWrite_live hb]
  rcases memWrite_cases s .configuration 0x0000#16 with ⟨e, -⟩ | ⟨c, _, _, -, e⟩ | ⟨-, -, e⟩ <;> simp only [e, Txn.live]
  · simp
  · simp
  · exact congrArg Host.Outcome.next (live_construct_live (s := { s with mem := _ }.answered _) hb _)

theorem execInit_live (stack : Int) (bus : Byte) :
    liveOutcome (execInit stack bus s.live) = liveOutcome (execInit stack bus s) := by
  cases hp : s.phase <;> simp only [execInit, live_phase, hp]
  · exact initAccept_live s stack bus
  · exact initRead_live hp
  · exact initWrite_live hp

/-! ### SET and SET_ALL -/

theorem setAccept_live (relay : Int) (on : Bool) :
    liveOutcome (setAccept relay on s.live) = liveOutcome (setAccept relay on s) := by
  cases hc : s.constructed with
  | false => simp [setAccept, hc]
  | true =>
    cases hl : relayLegal relay with
    | false => simp [setAccept, hc, hl]
    | true => simp [setAccept, hc, hl, State.live, State.startCommand, State.openSession]

theorem setRead_live {s : State} (hp : s.phase = .setRd) : liveOutcome (setRead s.live) = liveOutcome (setRead s) := by
  rw [setRead, setRead, memRead_live (by simp [hp])]
  rcases memRead_cases s .output with ⟨e, -⟩ | ⟨c, -, -, -, e⟩ | ⟨-, -, e⟩ <;> simp only [e, Txn.live]
  · simp
  · simp
  · simp [State.live, hp]

theorem setWrite_live {s : State} (hp : s.phase = .setWr) : liveOutcome (setWrite s.live) = liveOutcome (setWrite s) := by
  have hv : setWord s.live.tmp s.live.arg s.live.flag = setWord s.tmp s.arg s.flag := by simp [State.live, hp]
  rw [setWrite, setWrite, hv, memWrite_live (by simp [hp])]
  rcases memWrite_cases s .output (setWord s.tmp s.arg s.flag) with ⟨e, -⟩ | ⟨c, _, _, -, e⟩ | ⟨-, -, e⟩ <;>
    simp [e, Txn.live]

theorem execSet_live (relay : Int) (on : Bool) : liveOutcome (execSet relay on s.live) = liveOutcome (execSet relay on s) := by
  cases hp : s.phase <;> simp only [execSet, live_phase, hp]
  · exact setAccept_live s relay on
  · exact setRead_live hp
  · exact setWrite_live hp

theorem setAllAccept_live (mask : Word) : liveOutcome (setAllAccept mask s.live) = liveOutcome (setAllAccept mask s) := by
  cases hc : s.constructed with
  | false => simp [setAllAccept, hc]
  | true => simp [setAllAccept, hc, State.live, State.startCommand, State.openSession]

theorem setAllWrite_live {s : State} (hp : s.phase = .setAllWr) :
    liveOutcome (setAllWrite s.live) = liveOutcome (setAllWrite s) := by
  have hv : s.live.data = s.data := by simp [State.live, hp]
  rw [setAllWrite, setAllWrite, hv, memWrite_live (by simp [hp])]
  rcases memWrite_cases s .output (Machine.r2io s.data) with ⟨e, -⟩ | ⟨c, _, _, -, e⟩ | ⟨-, -, e⟩ <;> simp [e, Txn.live]

theorem execSetAll_live (mask : Word) : liveOutcome (execSetAll mask s.live) = liveOutcome (execSetAll mask s) := by
  cases hp : s.phase <;> simp only [execSetAll, live_phase, hp]
  · exact setAllAccept_live s mask
  · exact setAllWrite_live hp

/-! ### GET and GET_ALL -/

theorem getAccept_live (relay : Int) : liveOutcome (getAccept relay s.live) = liveOutcome (getAccept relay s) := by
  cases hc : s.constructed with
  | false => simp [getAccept, hc]
  | true =>
    cases hl : relayLegal relay with
    | false => simp [getAccept, hc, hl]
    | true => simp [getAccept, hc, hl, State.live, State.startCommand, State.openSession]

theorem getRead_live {s : State} (hp : s.phase = .getRd) : liveOutcome (getRead s.live) = liveOutcome (getRead s) := by
  rw [getRead, getRead, memRead_live (by simp [hp])]
  rcases memRead_cases s .output with ⟨e, -⟩ | ⟨c, -, -, -, e⟩ | ⟨-, -, e⟩ <;> simp only [e, Txn.live]
  · simp
  · simp
  · have hv : s.live.arg = s.arg := by simp [State.live, hp]
    simp [hv]

theorem execGet_live (relay : Int) : liveOutcome (execGet relay s.live) = liveOutcome (execGet relay s) := by
  cases hp : s.phase <;> simp only [execGet, live_phase, hp]
  · exact getAccept_live s relay
  · exact getRead_live hp

theorem getAllAccept_live : liveOutcome (getAllAccept s.live) = liveOutcome (getAllAccept s) := by
  cases hc : s.constructed with
  | false => simp [getAllAccept, hc]
  | true => simp [getAllAccept, hc, State.live, State.startCommand, State.openSession]

theorem getAllRead_live {s : State} (hp : s.phase = .getAllRd) :
    liveOutcome (getAllRead s.live) = liveOutcome (getAllRead s) := by
  rw [getAllRead, getAllRead, memRead_live (by simp [hp])]
  rcases memRead_cases s .output with ⟨e, -⟩ | ⟨c, -, -, -, e⟩ | ⟨-, -, e⟩ <;> simp [e, Txn.live]

theorem execGetAll_live : liveOutcome (execGetAll s.live) = liveOutcome (execGetAll s) := by
  cases hp : s.phase <;> simp only [execGetAll, live_phase, hp]
  · exact getAllAccept_live s
  · exact getAllRead_live hp

/-- No instruction's step depends on a dead register. -/
theorem exec_live (i : Instr) : liveOutcome (exec i s.live) = liveOutcome (exec i s) := by
  cases i with
  | init stack bus => exact execInit_live s stack bus
  | set relay on => exact execSet_live s relay on
  | setAll mask => exact execSetAll_live s mask
  | get relay => exact execGet_live s relay
  | getAll => exact execGetAll_live s
  | r2io v => exact congrArg Host.Outcome.next (live_live { s with units := { s.units with r2ioIn := v, r2ioOut := r2io v } })
  | io2r v => exact congrArg Host.Outcome.next (live_live { s with units := { s.units with io2rIn := v, io2rOut := io2r v } })
  | devaddr x => exact congrArg Host.Outcome.next (live_live { s with units := { s.units with devIn := x, devOut := devaddr x } })

/-! ### The outside world and the step -/

/-- A transaction in flight belongs to a command in progress, whose bus and device are live. -/
theorem abandon_live (f : Option Word) : s.live.abandon f = (s.abandon f).live := by
  by_cases hb : s.phase = .idle
  · have idle {t : State} (ht : t.phase = .idle) : t.abandon f = t := by
      cases f <;> simp [State.abandon, ht, Phase.request]
    rw [idle hb, idle (by simpa using hb)]
  · simp only [State.abandon, live_phase, live_target_of_busy hb]
    split <;> simp only [State.live, ne_eq, hb, not_false_eq_true, or_true, if_true]

theorem live_blockReset_live (u : Unspecified) (f : Option Word) :
    (s.live.blockReset u f).live = (s.blockReset u f).live := by
  rw [State.blockReset, State.blockReset, abandon_live, closeSession_live]
  rfl

theorem envStep_live : liveOutcome s.live.envStep = liveOutcome s.envStep := by
  rw [State.envStep, State.envStep, live_inputs, live_cmd]
  split
  case h_1 => exact congrArg Host.Outcome.next (live_live s)
  case h_2 =>
    split
    · exact congrArg Host.Outcome.next (live_setPorts_live s ..)
    · rfl
  case h_7 bus dev o p c i rest _ =>
    rw [powerCycle_eq, powerCycle_eq { s with inputs := rest }]
    exact congrArg Host.Outcome.next (live_setPorts_live s ..)
  case h_9 u f rest _ => exact congrArg Host.Outcome.next (live_blockReset_live { s with inputs := rest } u f)
  all_goals exact congrArg Host.Outcome.next (live_setPorts_live s ..)

theorem due_live : s.live.due = s.due.live := by
  rw [State.due, State.due, live_unitPort, inProgress_live, live_inputs, live_cmd]
  split
  · rfl
  · split
    · split <;> rfl
    · split
      · rfl
      · split <;> rfl

/-- A step from the live view has the step's outcome, up to dead registers. -/
theorem step_live : liveOutcome (step s.live) = liveOutcome (step s) := by
  rw [step, step, due_live]
  cases s.due with
  | run i t => exact exec_live t i
  | illegal t => exact congrArg Host.Outcome.next (live_raise_live t .illegal)
  | environment => exact envStep_live s

/-- Settles O59: both steps have the outcome of the step from the live view the two states share. -/
theorem deadRegistersShowInNothing : Obligations.DeadRegistersShowInNothing := by
  unfold Obligations.DeadRegistersShowInNothing
  intro s t h
  rw [sameOutcome_iff_liveOutcome_eq, ← step_live s, h, step_live t]

end Sys2Proof.Machine
end

section
/-! PROOFS. Two correspondences: transport causes and their codes (R54), stack levels and device addresses (R58, R132,
R133). -/

namespace Sys2Proof.Machine

/-! ### Cause codes -/

@[simp] theorem Cause.toNat_code_other (k : Fin 252) : (Cause.other k).code.toNat = 4 + k := by
  have hk := k.isLt
  rw [Cause.code, BitVec.toNat_ofNat]
  omega

theorem Cause.code_ne_zero (c : Cause) : c.code ≠ 0x00#8 := by
  cases c
  case other k => simp [← BitVec.toNat_inj]
  all_goals decide

/-- The cause that reports a nonzero code: the inverse of `Cause.code`. -/
def Cause.ofCode (b : Byte) : Cause :=
  if h : 4 ≤ b.toNat then .other ⟨b.toNat - 4, Nat.sub_lt_right_of_lt_add h b.isLt⟩
  else if b = 0x03#8 then .arbitrationLoss
  else if b = 0x02#8 then .timeout
  else .nack

theorem Cause.ofCode_code (c : Cause) : ofCode c.code = c := by
  cases c
  case other k => simp [ofCode]
  all_goals rfl

theorem Cause.code_ofCode {b : Byte} (hb : b ≠ 0x00#8) : (ofCode b).code = b := by
  unfold ofCode
  split_ifs with h₄ h₃ h₂
  · apply BitVec.eq_of_toNat_eq
    rw [toNat_code_other]
    dsimp only
    omega
  · exact h₃.symm
  · exact h₂.symm
  · change 0x01#8 = b
    bv_omega

/-- Settles O43: `Cause.ofCode` is the inverse that the last two clauses need. -/
theorem causeCodes : Obligations.CauseCodes :=
  ⟨rfl, rfl, rfl, Cause.code_ne_zero, fun _ hb => ⟨_, Cause.code_ofCode hb⟩,
    fun _ _ h => Function.LeftInverse.injective Cause.ofCode_code h⟩

/-! ### Device addresses -/

/-- Stack level 0 has the highest address, and each level above it the next lower one. -/
theorem toNat_of_devaddr {x : Int} {a : Byte} (h : devaddr x = some a) : (a.toNat : Int) = 0x27 - x := by
  obtain ⟨h₀, h₇⟩ := legal_of_devaddr h
  rw [devaddr_of_legal h₀ h₇] at h
  cases h
  interval_cases x <;> decide

theorem range_of_devaddr {x : Int} {a : Byte} (h : devaddr x = some a) : 0x20#8 ≤ a ∧ a ≤ 0x27#8 := by
  have ha := toNat_of_devaddr h
  have hx := legal_of_devaddr h
  constructor <;> bv_omega

/-- Settles O19: an address and its stack level add up to 0x27, so each determines the other. -/
theorem stackLevelsAndAddressesCorrespond : Obligations.StackLevelsAndAddressesCorrespond := by
  unfold Obligations.StackLevelsAndAddressesCorrespond
  refine ⟨fun x a h => ?_, fun a hlo hhi => ?_, fun x y a hx hy => ?_⟩
  · obtain ⟨h₀, h₇⟩ := legal_of_devaddr h
    obtain ⟨hlo, hhi⟩ := range_of_devaddr h
    exact ⟨h₀, h₇, hlo, hhi, bit7_of_devaddr h⟩
  · have h := devaddr_of_legal (x := 0x27 - a.toNat) (by bv_omega) (by bv_omega)
    have ha := toNat_of_devaddr h
    refine ⟨0x27 - a.toNat, h.trans (congrArg some (BitVec.eq_of_toNat_eq ?_))⟩
    omega
  · have hx := toNat_of_devaddr hx
    have hy := toNat_of_devaddr hy
    omega

end Sys2Proof.Machine
end

section
/-! PROOFS. The command in progress takes the transport's answer and goes on (R24, R65). -/

namespace Sys2Proof.Machine

theorem Phase.ne_idle_of_request {p : Phase} {r : Access × Reg} (h : p.request = some r) : p ≠ .idle := by
  rintro rfl
  cases h

@[simp] theorem inProgress_ne_r2io (s : State) (v : Word) : s.inProgress ≠ some (.r2io v) := by
  unfold State.inProgress
  cases s.phase <;> simp

@[simp] theorem inProgress_ne_io2r (s : State) (v : Word) : s.inProgress ≠ some (.io2r v) := by
  unfold State.inProgress
  cases s.phase <;> simp

@[simp] theorem inProgress_ne_devaddr (s : State) (x : Int) : s.inProgress ≠ some (.devaddr x) := by
  unfold State.inProgress
  cases s.phase <;> simp

/-- The command in progress is never refused. -/
theorem exec_inProgress_goes_on {s : State} {i : Instr} (hi : s.inProgress = some i) : ∃ t, exec i s = .next t := by
  unfold State.inProgress at hi
  split at hi <;> rename_i hp <;> cases hi
  · simp only [exec, execInit, hp, initRead]
    split
    case h_3 => split <;> exact ⟨_, rfl⟩
    all_goals exact ⟨_, rfl⟩
  · simp only [exec, execInit, hp, initWrite]
    split <;> exact ⟨_, rfl⟩
  · simp only [exec, execSet, hp, setRead]
    split <;> exact ⟨_, rfl⟩
  · simp only [exec, execSet, hp, setWrite]
    split <;> exact ⟨_, rfl⟩
  · simp only [exec, execSetAll, hp, setAllWrite]
    split <;> exact ⟨_, rfl⟩
  · simp only [exec, execGet, hp, getRead]
    split <;> exact ⟨_, rfl⟩
  · simp only [exec, execGetAll, hp, getAllRead]
    split <;> exact ⟨_, rfl⟩

/-- An answer of the transport is taken by a step of the command in progress. -/
theorem step_of_busy_answer {s : State} {a : Answer} {rest : List Input} (hb : s.phase ≠ .idle) (hu : s.unitPort = none)
    (ha : s.inputs = .answer a :: rest) : ∃ i t, s.inProgress = some i ∧ step s = .next t ∧ Transition i s t := by
  obtain ⟨i, hi⟩ := Option.ne_none_iff_exists'.1 (mt (inProgress_eq_none_iff s).1 hb)
  obtain ⟨t, ht⟩ := exec_inProgress_goes_on hi
  exact ⟨i, t, hi, (step_of_answer hu ha hi).trans ht, exec_next ht⟩

end Sys2Proof.Machine
end

section
/-! PROOFS. What a step stores: nothing outside the register that the write transaction due addresses, whether the transaction
succeeds or fails (R52, R55, R56, R57). -/

namespace Sys2Proof.Machine

/-- Settles O46, by the two laws of a stored word. -/
theorem wordWrittenIsWordRead : Obligations.WordWrittenIsWordRead :=
  fun m k v => ⟨m.readWord_writeWord_self k v, fun _ => m.readByte_writeWord_other v⟩

/-- An instruction's step changes the memory by the write transaction that is due, if by anything. -/
theorem Transition.mem_eq_or_writes {i : Instr} {s t : State} (h : Transition i s t) :
    t.mem = s.mem ∨ ∃ reg v, s.phase.request = some (.write, reg) ∧ t.mem = s.mem.writeWord (s.target reg) v := by
  cases h
  case writeErr reg v c left rest _ _ due => exact .inr ⟨reg, left, due, by simp⟩
  case initWriteOk hp => exact .inr ⟨.configuration, 0x0000#16, by rw [hp]; rfl, by simp⟩
  case writeOutputOk rest v _ hp =>
    refine .inr ⟨.output, v, ?_, by simp⟩
    rcases hp with ⟨hp, -⟩ | ⟨hp, -⟩ <;> rw [hp] <;> rfl
  all_goals exact .inl (by simp)

/-- With a write to `reg` due, an instruction's step leaves every byte outside `reg`. -/
theorem Transition.sameBytesBut {i : Instr} {s t : State} (h : Transition i s t) {reg : Reg}
    (hr : s.phase.request = some (.write, reg)) : s.sameBytesBut t (regAddr s.busId s.devAddr reg) := by
  intro j h₀ h₁
  rcases h.mem_eq_or_writes with hm | ⟨reg', v, hr', hm⟩
  · rw [hm]
  · rw [hr] at hr'
    cases hr'
    rw [hm]
    exact s.mem.readByte_writeWord_other v h₀ h₁

theorem Phase.write_cases {p : Phase} {reg : Reg} (h : p.request = some (.write, reg)) :
    p = .initWr ∨ p = .setWr ∨ p = .setAllWr := by
  cases p <;> simp [request] at h ⊢

/-- Settles O48: only the three write phases have a write transaction due. -/
theorem instructionsStoreOnlyToTheAddressedRegister : Obligations.InstructionsStoreOnlyToTheAddressedRegister := by
  unfold Obligations.InstructionsStoreOnlyToTheAddressedRegister
  intro i s t h
  have ht := exec_next h
  refine ⟨fun h₁ h₂ h₃ => ?_, fun hp => ht.sameBytesBut (by rw [hp]; rfl), fun hp => ht.sameBytesBut ?_⟩
  · refine ht.mem_eq_or_writes.resolve_right ?_
    rintro ⟨reg, v, hr, -⟩
    rcases Phase.write_cases hr with hp | hp | hp <;> contradiction
  · rcases hp with hp | hp <;> rw [hp] <;> rfl

/-- A write transaction that fails ends the command with the exception of its phase. -/
theorem Transition.eq_of_failed_write {i : Instr} {s t : State} (h : Transition i s t) (hi : s.inProgress = some i)
    {reg : Reg} {c : Cause} {left : Word} {rest : List Input} (ha : s.inputs = .answer (.err c left) :: rest)
    (hr : s.phase.request = some (.write, reg)) :
    ∃ v, t = ((s.setDevice s.busId s.devAddr reg left).answered (.writeErr s.devAddr reg.offset v c)).raise
      (s.phase.failure c) := by
  have busy := Phase.ne_idle_of_request hr
  cases h
  case writeErr reg' v c' left' rest' _ ha' hr' =>
    rw [ha] at ha'
    rw [hr] at hr'
    cases ha'
    cases hr'
    exact ⟨v, rfl⟩
  case readErr hr' => simp [hr] at hr'
  case r2io | io2r | devaddr => simp at hi
  case wait hn => exact absurd ha (hn _ rest)
  case reject | acceptInit | acceptSet | acceptSetAll | acceptGet | acceptGetAll => contradiction
  -- Every other transition takes the answer ok.
  all_goals simp_all

/-- Settles O49: the failed write is `setDevice` with the word the answer carries, and then the exception. -/
theorem failedWriteLeavesAnyValue : Obligations.FailedWriteLeavesAnyValue := by
  unfold Obligations.FailedWriteLeavesAnyValue
  intro s reg c left rest hu ha hp
  have hr : s.phase.request = some (.write, reg) := by
    rcases hp with ⟨hp, rfl⟩ | ⟨hp, rfl⟩ | ⟨hp, rfl⟩ <;> rw [hp] <;> rfl
  obtain ⟨i, t, hi, hstep, ht⟩ := step_of_busy_answer (Phase.ne_idle_of_request hr) hu ha
  obtain ⟨v, rfl⟩ := ht.eq_of_failed_write hi ha hr
  refine ⟨_, hstep, rfl, raise_sess .., ?_, ?_, ?_⟩
  · simp [State.device]
  · simpa [State.sameBytesBut] using sameBytesBut_setDevice s s.busId s.devAddr reg left
  · rcases hp with ⟨hp, rfl⟩ | ⟨hp, rfl⟩ | ⟨hp, rfl⟩ <;> rw [hp] <;> rfl

end Sys2Proof.Machine
end

section
/-! PROOFS. A command in progress waits for the transport (R70, R229), and ends after two answers at most (R64, R65). -/

namespace Sys2Proof.Machine

/-! ### Waiting -/

/-- A function unit's input changes nothing but the units' ports. -/
theorem exec_unit (u : UnitInput) (s : State) : ∃ us, exec u.instr s = .next { s with units := us } := by
  cases u <;> exact ⟨_, rfl⟩

/-- Without an answer and without a block reset, a step inside a command changes ports, coming moves and memory only. -/
theorem step_of_waiting {s t : State} (hb : s.phase ≠ .idle) (ha : ∀ a rest, s.inputs ≠ .answer a :: rest)
    (hr : ∀ u f rest, s.inputs ≠ .blockReset u f :: rest) (h : step s = .next t) :
    ∃ c u us rest m, t = { s with cmd := c, unitPort := u, units := us, inputs := rest, mem := m } := by
  rcases due_cases s with ⟨u, -, hd⟩ | ⟨i, a, rest, -, -, hin, -⟩ | ⟨w, i, -, hp, -⟩ | ⟨w, why, -, hp, -⟩ | ⟨-, -, -, hd⟩
  · obtain ⟨us, hus⟩ := exec_unit u { s with unitPort := none }
    rw [step_of_run hd, hus] at h
    cases h
    exact ⟨_, _, _, _, _, rfl⟩
  · exact absurd hin (ha a rest)
  · exact absurd hp hb
  · exact absurd hp hb
  · rw [step_of_environment hd] at h
    rcases envStep_cases h with ⟨u, f, rest, hin, -⟩ | ⟨c, u, rest, m, rfl, -⟩
    · exact absurd hin (hr u f rest)
    · exact ⟨_, _, _, _, _, rfl⟩

theorem run_succ_of_step {s t : State} (h : step s = .next t) (n : Nat) :
    Host.Core.run core (n + 1) s = Host.Core.run core n t := by
  have hc : core.step s = .next t := h
  simp only [Host.Core.run, hc]

/-- A step that changes nothing is repeated for ever. -/
theorem run_of_step_self {s : State} (h : step s = .next s) (n : Nat) : Host.Core.run core n s = .next s := by
  induction n with
  | zero => rfl
  | succ n ih => rw [run_succ_of_step h, ih]

/-- Settles O11: no step changes a controller register, and with no move to come the step changes nothing. -/
theorem commandWaitsForTheTransport : Obligations.CommandWaitsForTheTransport := by
  unfold Obligations.CommandWaitsForTheTransport
  intro s hb ha hr
  refine ⟨fun t h => ?_, fun hu hin => run_of_step_self ?_⟩
  · obtain ⟨c, u, us, rest, m, rfl⟩ := step_of_waiting hb ha hr h
    simp
  · rw [step_of_move hu (fun hp => absurd hp hb) ha, State.envStep, hin]

/-! ### Ending -/

/-- How many answers the command in progress may still need (R64). -/
def Phase.answersLeft : Phase → Nat
  | .idle => 0
  | .initRd | .setRd => 2
  | .initWr | .setWr | .setAllWr | .getRd | .getAllRd => 1

@[simp] theorem Phase.answersLeft_idle : Phase.idle.answersLeft = 0 := rfl

theorem Phase.eq_idle_of_answersLeft {p : Phase} (h : p.answersLeft = 0) : p = .idle := by
  revert h
  cases p <;> decide

theorem Phase.answersLeft_le_two (p : Phase) : p.answersLeft ≤ 2 := by
  cases p <;> decide

/-- The command in progress takes the answer and needs fewer from then on; if it needs none, it has responded. -/
theorem Transition.takes_answer {i : Instr} {s t : State} (h : Transition i s t) (hi : s.inProgress = some i) {a : Answer}
    {rest : List Input} (ha : s.inputs = .answer a :: rest) :
    t.inputs = rest ∧ t.unitPort = s.unitPort ∧ t.phase.answersLeft < s.phase.answersLeft ∧
      (t.phase = .idle → t.rsp.isSome = true) := by
  have busy : s.phase ≠ .idle := mt (inProgress_eq_none_iff s).2 (by simp [hi])
  have left : 0 < s.phase.answersLeft := Nat.pos_of_ne_zero (mt Phase.eq_idle_of_answersLeft busy)
  cases h
  case initReadNonzero hp _ => simp [ha, hp, Phase.answersLeft]
  case setReadOk hp _ => simp [ha, hp, Phase.answersLeft]
  case wait hn => exact absurd ha (hn a rest)
  case r2io | io2r | devaddr => simp at hi
  case reject | acceptInit | acceptSet | acceptSetAll | acceptGet | acceptGetAll => contradiction
  all_goals simpa [ha] using left

/-- A move of the device side, where it is made, changes the memory only. -/
theorem envStep_of_deviceSide {s : State} {x : Input} {rest : List Input} (hx : x.deviceSide = true)
    (hin : s.inputs = x :: rest) : ∃ m, s.envStep = .next { s with inputs := rest, mem := m } := by
  cases x <;> simp only [Input.deviceSide, Bool.false_eq_true] at hx <;> rw [State.envStep, hin]
  case powerCycle => exact ⟨_, congrArg Host.Outcome.next (powerCycle_eq ..)⟩
  all_goals exact ⟨_, rfl⟩

theorem Input.isAnswer_iff {x : Input} : x.isAnswer = true ↔ ∃ a, x = .answer a := by
  cases x <;> simp [Input.isAnswer]

/-- A step of a command in progress makes the next move, and an answer brings the command nearer to its end. -/
theorem step_of_busy_deviceSide {s : State} {x : Input} {rest : List Input} (hb : s.phase ≠ .idle) (hu : s.unitPort = none)
    (hx : x.deviceSide = true) (hin : s.inputs = x :: rest) :
    ∃ t, step s = .next t ∧ t.inputs = rest ∧ t.unitPort = none ∧
      t.phase.answersLeft + (if x.isAnswer then 1 else 0) ≤ s.phase.answersLeft ∧
      (t.phase = .idle → t.rsp.isSome = true) := by
  by_cases ha : x.isAnswer = true
  · obtain ⟨a, rfl⟩ := Input.isAnswer_iff.1 ha
    obtain ⟨i, t, hi, hstep, ht⟩ := step_of_busy_answer hb hu hin
    obtain ⟨hrest, hport, hless, hrsp⟩ := ht.takes_answer hi hin
    exact ⟨t, hstep, hrest, hport.trans hu, hless, hrsp⟩
  · have hna : ∀ a r, s.inputs ≠ .answer a :: r := by
      rintro a r h
      rw [hin] at h
      cases h
      exact ha rfl
    obtain ⟨m, hm⟩ := envStep_of_deviceSide hx hin
    refine ⟨_, (step_of_move hu (fun hp => absurd hp hb) hna).trans hm, rfl, hu, ?_, fun hp => absurd hp hb⟩
    simp [ha]

/-- Within `k` steps the block is in IDLE with its session released and a response. -/
def State.endsWithin (s : State) (k : Nat) : Prop :=
  ∃ n t r, n ≤ k ∧ Host.Core.run core n s = .next t ∧ t.phase = .idle ∧ t.sess = false ∧ t.rsp = some r

theorem State.Inv.endsWithin_of_idle {s : State} (h : s.Inv) (hp : s.phase = .idle) (hr : s.rsp.isSome = true) (k : Nat) :
    s.endsWithin k := by
  obtain ⟨r, hr⟩ := Option.isSome_iff_exists.1 hr
  exact ⟨0, s, r, Nat.zero_le k, rfl, hp, by simpa [hp] using h.session, hr⟩

theorem endsWithin_succ_of_step {s t : State} {k : Nat} (h : step s = .next t) (ht : t.endsWithin k) :
    s.endsWithin (k + 1) := by
  obtain ⟨n, t', r, hn, hrun, hend⟩ := ht
  exact ⟨n + 1, t', r, Nat.succ_le_succ hn, (run_succ_of_step h n).trans hrun, hend⟩

/-- With as many answers to come as the command may still need, it ends with a response. -/
theorem endsWithin_of_answersLeft_le (moves : List Input) {s : State} (hi : s.Inv) (hin : s.inputs = moves)
    (hu : s.unitPort = none) (hr : s.phase = .idle → s.rsp.isSome = true) (hd : ∀ x ∈ moves, x.deviceSide = true)
    (hn : s.phase.answersLeft ≤ moves.countP Input.isAnswer) : s.endsWithin moves.length := by
  induction moves generalizing s with
  | nil =>
    have hp := Phase.eq_idle_of_answersLeft (Nat.le_zero.1 hn)
    exact hi.endsWithin_of_idle hp (hr hp) _
  | cons x rest ih =>
    by_cases hp : s.phase = .idle
    · exact hi.endsWithin_of_idle hp (hr hp) _
    · obtain ⟨hx, hrest⟩ := List.forall_mem_cons.1 hd
      obtain ⟨t, hstep, htin, htu, hless, htr⟩ := step_of_busy_deviceSide hp hu hx hin
      rw [List.countP_cons] at hn
      exact endsWithin_succ_of_step hstep
        (ih (everyStepKeepsTheInvariant s t hi hstep) htin htu htr hrest (by omega))

/-- Settles O60: no command needs more than two answers. -/
theorem answeredCommandsEnd : Obligations.AnsweredCommandsEnd := by
  unfold Obligations.AnsweredCommandsEnd
  intro s hi hb hu hd hn
  exact endsWithin_of_answersLeft_le s.inputs hi rfl hu (fun hp => absurd hp hb) hd
    (s.phase.answersLeft_le_two.trans hn)

end Sys2Proof.Machine
end

section
/-! PROOFS. The transport port: what a step records on it (R24, R50, R57). -/

namespace Sys2Proof.Machine

/-- The records of a bus transaction that a block in this phase can make, its device at `dev`. -/
inductive Phase.Transacts (p : Phase) (dev : Byte) : BusRecord → Prop where
  | readOk {reg : Reg} (w : Word) (due : p.request = some (.read, reg)) : Transacts p dev (.readOk dev reg.offset w)
  | readErr {reg : Reg} (c : Cause) (due : p.request = some (.read, reg)) : Transacts p dev (.readErr dev reg.offset c)
  | writeOk {reg : Reg} (v : Word) (due : p.request = some (.write, reg)) (value : reg = .configuration → v = 0x0000#16) :
    Transacts p dev (.writeOk dev reg.offset v)
  | writeErr {reg : Reg} (v : Word) (c : Cause) (due : p.request = some (.write, reg))
    (value : reg = .configuration → v = 0x0000#16) : Transacts p dev (.writeErr dev reg.offset v c)
  | abandoned {access : Access} {reg : Reg} (due : p.request = some (access, reg)) :
    Transacts p dev (.abandoned dev reg.offset)

/-- From `s` to `t` the transport port gains at most one bus transaction, beside records of the session. -/
def State.recordsOneAtMost (s t : State) : Prop :=
  ∃ (session : List BusRecord) (txn : Option BusRecord), t.xport = session ++ txn.toList ++ s.xport ∧
    (∀ x ∈ session, x = .closed ∨ x = .opened t.busId) ∧ ∀ x ∈ txn, s.phase.Transacts s.devAddr x

section
variable {s t : State} {txn : Option BusRecord} (hx : ∀ x ∈ txn, s.phase.Transacts s.devAddr x)
include hx

/-- The transaction is recorded, and the session stays as it is. -/
theorem recordsOneAtMost_of_xport (h : t.xport = txn.toList ++ s.xport) : s.recordsOneAtMost t :=
  ⟨[], txn, h, by simp, hx⟩

/-- The transaction is recorded, and then the session is released. -/
theorem recordsOneAtMost_of_close {u : State} (hu : u.xport = txn.toList ++ s.xport) (h : t.xport = u.closeSession.xport) :
    s.recordsOneAtMost t := by
  cases hs : u.sess
  · exact recordsOneAtMost_of_xport hx (by rw [h, closeSession_of_closed hs, hu])
  · exact ⟨[.closed], txn, by rw [h, closeSession_of_open hs, hu]; rfl, by simp, hx⟩

end

theorem recordsOneAtMost_of_open {s t : State} (h : t.xport = .opened t.busId :: s.xport) : s.recordsOneAtMost t :=
  ⟨[.opened t.busId], none, h, by simp, by simp⟩

theorem Phase.Transacts.forall_mem_some {p : Phase} {dev : Byte} {r : BusRecord} (h : p.Transacts dev r) :
    ∀ x ∈ some r, p.Transacts dev x := by
  rintro _ ⟨⟩
  exact h

/-- An instruction's step makes at most the transaction that is due. -/
theorem Transition.recordsOneAtMost {i : Instr} {s t : State} (h : Transition i s t) : s.recordsOneAtMost t := by
  cases h
  case r2io | io2r | devaddr | wait => exact recordsOneAtMost_of_xport (txn := none) (by simp) rfl
  case reject => exact recordsOneAtMost_of_close (txn := none) (by simp) rfl rfl
  case acceptInit | acceptSet | acceptSetAll | acceptGet | acceptGetAll => exact recordsOneAtMost_of_open rfl
  case readErr c left rest _ due =>
    exact recordsOneAtMost_of_close (Phase.Transacts.readErr c due).forall_mem_some rfl rfl
  case writeErr v c left rest value _ due =>
    exact recordsOneAtMost_of_close (Phase.Transacts.writeErr v c due value).forall_mem_some rfl rfl
  case initReadZero hp _ =>
    exact recordsOneAtMost_of_close
      (Phase.Transacts.readOk (reg := .configuration) _ (by rw [hp]; rfl)).forall_mem_some rfl rfl
  case initReadNonzero w _ _ hp _ =>
    exact recordsOneAtMost_of_xport (Phase.Transacts.readOk (reg := .configuration) w (by rw [hp]; rfl)).forall_mem_some rfl
  case initWriteOk hp =>
    exact recordsOneAtMost_of_close
      (Phase.Transacts.writeOk (reg := .configuration) _ (by rw [hp]; rfl) fun _ => rfl).forall_mem_some rfl rfl
  case setReadOk hp _ =>
    exact recordsOneAtMost_of_xport (Phase.Transacts.readOk (reg := .output) _ (by rw [hp]; rfl)).forall_mem_some rfl
  case writeOutputOk rest v _ hp =>
    have due : s.phase.request = some (.write, .output) := by
      rcases hp with ⟨hp, -⟩ | ⟨hp, -⟩ <;> rw [hp] <;> rfl
    exact recordsOneAtMost_of_close (Phase.Transacts.writeOk v due nofun).forall_mem_some rfl rfl
  case getReadOk rest w d _ _ hp =>
    have due : s.phase.request = some (.read, .output) := by
      rcases hp with ⟨hp, -⟩ | ⟨hp, -⟩ <;> rw [hp] <;> rfl
    exact recordsOneAtMost_of_close (Phase.Transacts.readOk w due).forall_mem_some rfl rfl

/-- A block reset records the transaction in flight, if there is one, as abandoned. -/
theorem abandon_xport (s : State) (f : Option Word) :
    ∃ txn : Option BusRecord, (s.abandon f).xport = txn.toList ++ s.xport ∧ ∀ x ∈ txn, s.phase.Transacts s.devAddr x := by
  unfold State.abandon
  split
  case h_1 left reg due => exact ⟨some _, rfl, (Phase.Transacts.abandoned due).forall_mem_some⟩
  case h_2 w reg due => exact ⟨some _, rfl, (Phase.Transacts.abandoned due).forall_mem_some⟩
  case h_3 => exact ⟨none, rfl, by simp⟩

theorem blockReset_recordsOneAtMost (s : State) (u : Unspecified) (f : Option Word) :
    s.recordsOneAtMost (s.blockReset u f) := by
  obtain ⟨txn, hxport, hx⟩ := abandon_xport s f
  exact recordsOneAtMost_of_close hx hxport rfl

theorem step_recordsOneAtMost {s t : State} (h : step s = .next t) : s.recordsOneAtMost t := by
  rcases step_cases h with ⟨i, c, u, ht⟩ | ⟨-, c, rfl⟩ | he
  · exact ht.recordsOneAtMost
  · exact recordsOneAtMost_of_close (txn := none) (u := { s with cmd := c }) (by simp) rfl rfl
  · rcases envStep_cases he with ⟨u, f, rest, -, rfl⟩ | ⟨c, u, rest, m, rfl, -⟩
    · exact blockReset_recordsOneAtMost { s with inputs := rest } u f
    · exact recordsOneAtMost_of_xport (txn := none) (by simp) rfl

theorem Phase.ne_idle_of_transacts {p : Phase} {dev : Byte} {x : BusRecord} (h : p.Transacts dev x) : p ≠ .idle := by
  cases h with
  | readOk _ due | readErr _ due | writeOk _ due | writeErr _ _ due | abandoned due => exact Phase.ne_idle_of_request due

theorem Phase.reg_of_request {p : Phase} {a : Access} {reg : Reg} (h : p.request = some (a, reg)) :
    reg = .output ∨ reg = .configuration := by
  cases p <;> cases h <;> simp

/-- A transaction goes to OUTPUT at offset 0x02 or to CONFIGURATION at offset 0x06, where 0x0000 alone is written. -/
theorem Phase.Transacts.offset_cases {p : Phase} {dev : Byte} {x : BusRecord} (h : p.Transacts dev x) :
    (∃ w c, x = .readOk dev 0x02#8 w ∨ x = .readErr dev 0x02#8 c ∨ x = .writeOk dev 0x02#8 w ∨
      x = .writeErr dev 0x02#8 w c ∨ x = .abandoned dev 0x02#8) ∨
    (∃ w c, x = .readOk dev 0x06#8 w ∨ x = .readErr dev 0x06#8 c ∨ x = .writeOk dev 0x06#8 0#16 ∨
      x = .writeErr dev 0x06#8 0#16 c ∨ x = .abandoned dev 0x06#8) := by
  cases h with
  | readOk w due =>
    rcases reg_of_request due with rfl | rfl
    · exact .inl ⟨w, .nack, .inl rfl⟩
    · exact .inr ⟨w, .nack, .inl rfl⟩
  | readErr c due =>
    rcases reg_of_request due with rfl | rfl
    · exact .inl ⟨0#16, c, .inr (.inl rfl)⟩
    · exact .inr ⟨0#16, c, .inr (.inl rfl)⟩
  | writeOk v due value =>
    rcases reg_of_request due with rfl | rfl
    · exact .inl ⟨v, .nack, .inr (.inr (.inl rfl))⟩
    · rw [value rfl]
      exact .inr ⟨0#16, .nack, .inr (.inr (.inl rfl))⟩
  | writeErr v c due value =>
    rcases reg_of_request due with rfl | rfl
    · exact .inl ⟨v, c, .inr (.inr (.inr (.inl rfl)))⟩
    · rw [value rfl]
      exact .inr ⟨0#16, c, .inr (.inr (.inr (.inl rfl)))⟩
  | abandoned due =>
    rcases reg_of_request due with rfl | rfl
    · exact .inl ⟨0#16, .nack, .inr (.inr (.inr (.inr rfl)))⟩
    · exact .inr ⟨0#16, .nack, .inr (.inr (.inr (.inr rfl)))⟩

/-- Settles O50: the invariant gives the device's address whenever a transaction can be made. -/
theorem blockReachesOnlyItsTwoRegisters : Obligations.BlockReachesOnlyItsTwoRegisters := by
  unfold Obligations.BlockReachesOnlyItsTwoRegisters
  intro s t hi h
  obtain ⟨session, txn, hxport, hsession, htxn⟩ := step_recordsOneAtMost h
  refine ⟨session ++ txn.toList, hxport, ?_, fun x hx => ?_⟩
  · have hnone : (session.filter fun x => x != .closed && x != .opened t.busId) = [] := by
      rw [List.filter_eq_nil_iff]
      intro x hx
      rcases hsession x hx with rfl | rfl <;> simp
    rw [List.filter_append, hnone, List.nil_append]
    exact (List.length_filter_le _ _).trans (by cases txn <;> simp)
  · rcases List.mem_append.1 hx with hx | hx
    · exact (hsession x hx).imp_right .inl
    · have htx := htxn x (Option.mem_toList.1 hx)
      obtain ⟨hlo, hhi⟩ := range_of_devaddr (hi.address (.inr (Phase.ne_idle_of_transacts htx)))
      exact .inr (.inr ⟨hlo, hhi, htx.offset_cases⟩)

end Sys2Proof.Machine
end

section
/-! PROOFS. The encoding of the commands (R84 to R89): a command word is its five fields, the decoder inverts the encoder, and
so each row of R86 is one condition on the fields. -/

namespace Sys2Proof

/-! ### The 16-bit field of an integer -/

theorem sext16_field16 {n : Int} (h : fitsField n = true) : sext16 (field16 n) = n := by
  simp only [fitsField, Bool.and_eq_true, decide_eq_true_eq] at h
  rw [sext16, field16, BitVec.toInt_ofInt]
  exact Int.bmod_eq_of_le (by omega) (by omega)

theorem field16_sext16 (v : Word) : field16 (sext16 v) = v := BitVec.ofInt_toInt

theorem fitsField_sext16 (v : Word) : fitsField (sext16 v) = true := by
  have hlo : -32768 ≤ v.toInt := BitVec.le_toInt v
  have hhi : v.toInt < 32768 := BitVec.toInt_lt
  rw [fitsField, Bool.and_eq_true, decide_eq_true_eq, decide_eq_true_eq, sext16]
  omega

/-! ### A command word and its fields (R85) -/

section
variable (op : BitVec 4) (f : BitVec 1) (bus : Byte) (arg : Word)

@[simp] theorem fieldOp_packCommand : fieldOp (packCommand op f bus arg) = op := by
  ext i hi
  interval_cases i <;> simp [fieldOp, packCommand]

@[simp] theorem fieldRsv_packCommand : fieldRsv (packCommand op f bus arg) = 0#3 := by
  ext i hi
  interval_cases i <;> simp [fieldRsv, packCommand]

@[simp] theorem fieldF_packCommand : fieldF (packCommand op f bus arg) = f := by
  ext i hi
  interval_cases i
  simp [fieldF, packCommand]

@[simp] theorem fieldBus_packCommand : fieldBus (packCommand op f bus arg) = bus := by
  ext i hi
  interval_cases i <;> simp [fieldBus, packCommand]

@[simp] theorem fieldArg_packCommand : fieldArg (packCommand op f bus arg) = arg := by
  ext i hi
  interval_cases i <;> simp [fieldArg, packCommand]

end

/-- A word is its five fields put together. -/
theorem word_of_fields (w : PortWord) : fieldOp w ++ fieldRsv w ++ fieldF w ++ fieldBus w ++ fieldArg w = w := by
  simp only [fieldOp, fieldRsv, fieldF, fieldBus, fieldArg]
  iterate 4 rw [BitVec.extractLsb'_append_extractLsb'_eq_extractLsb' (by rfl)]
  exact BitVec.extractLsb'_eq_self

theorem eq_iff_fields_eq (v w : PortWord) : v = w ↔
    fieldOp v = fieldOp w ∧ fieldRsv v = fieldRsv w ∧ fieldF v = fieldF w ∧ fieldBus v = fieldBus w ∧
      fieldArg v = fieldArg w := by
  refine ⟨fun h => h ▸ ⟨rfl, rfl, rfl, rfl, rfl⟩, fun ⟨hop, hrsv, hf, hbus, harg⟩ => ?_⟩
  rw [← word_of_fields v, ← word_of_fields w, hop, hrsv, hf, hbus, harg]

theorem packCommand_eq_iff {op : BitVec 4} {f : BitVec 1} {bus : Byte} {arg : Word} {w : PortWord} :
    packCommand op f bus arg = w ↔
      fieldOp w = op ∧ fieldRsv w = 0#3 ∧ fieldF w = f ∧ fieldBus w = bus ∧ fieldArg w = arg := by
  simp [eq_iff_fields_eq, eq_comm]

/-! ### The decoder inverts the encoder -/

/-- R86, column `op`: the inverse of `opcodeOf`. -/
def Opcode.code : Opcode → BitVec 4
  | .init => 0x1#4
  | .set => 0x2#4
  | .setAll => 0x3#4
  | .get => 0x4#4
  | .getAll => 0x5#4

theorem opcodeOf_eq_some_iff {op : BitVec 4} {o : Opcode} : opcodeOf op = some o ↔ op = o.code := by
  revert op
  cases o <;> decide

theorem opcodeOf_eq_none_iff : ∀ {op : BitVec 4}, opcodeOf op = none ↔ op = 0#4 ∨ 6#4 ≤ op := by
  decide

theorem decode_encode {i : Instr} (h : i.wf = true) : decode (encode i) = .instr i := by
  cases i with
  | init stack bus => simp [encode, decode, decodeCommand, opcodeOf, sext16_field16 h]
  | set relay on => cases on <;> simp [encode, decode, decodeCommand, opcodeOf, sext16_field16 h]
  | setAll mask => simp [encode, decode, decodeCommand, opcodeOf]
  | get relay => simp [encode, decode, decodeCommand, opcodeOf, sext16_field16 h]
  | getAll => simp [encode, decode, decodeCommand, opcodeOf]
  | r2io v | io2r v => rfl
  | devaddr x => simp [encode, decode, UnitInput.instr, sext16_field16 h]

/-- Bit 24 as the field `f` and as SET's `on`. -/
theorem fieldF_eq_ofBool (w : PortWord) : fieldF w = BitVec.ofBool (w.getLsbD 24) := by
  ext i hi
  interval_cases i
  simp [fieldF]

theorem ofBool_eq_one_beq (f : BitVec 1) : BitVec.ofBool (f == 1#1) = f := by
  revert f
  decide

/-- A word that decodes holds its operands in the fields of its row, and 0 in every other field. -/
theorem encode_of_decodeCommand {w : PortWord} {i : Instr} (h : decodeCommand w = .instr i) :
    i.wf = true ∧ encode i = .command w := by
  unfold decodeCommand at h
  split at h
  · cases h
  · rename_i o ho
    have hop := opcodeOf_eq_some_iff.1 ho
    split_ifs at h with hrsv hf hbus harg
    cases o <;> cases h <;>
      refine ⟨?_, congrArg Stimulus.command (packCommand_eq_iff.2 ⟨hop, not_not.1 hrsv, ?_, ?_, ?_⟩)⟩ <;>
      simp_all [Instr.wf, fitsField_sext16, field16_sext16, ofBool_eq_one_beq]

theorem decodeCommand_eq_instr_iff {w : PortWord} {i : Instr} :
    decodeCommand w = .instr i ↔ i.wf = true ∧ encode i = .command w := by
  refine ⟨encode_of_decodeCommand, fun ⟨hi, he⟩ => ?_⟩
  have h := decode_encode hi
  rwa [he] at h

theorem encode_of_decode_unit (u : UnitInput) : u.instr.wf = true ∧ encode u.instr = .unit u := by
  cases u with
  | r2io v | io2r v => exact ⟨rfl, rfl⟩
  | devaddr x => exact ⟨fitsField_sext16 x, by rw [UnitInput.instr, encode, field16_sext16]⟩

/-- Settles O2: each field of a packed word reads back, and an operand that fits its field is exact. -/
theorem decodingAnEncodedInstructionGivesItBack : Obligations.DecodingAnEncodedInstructionGivesItBack :=
  fun _ => decode_encode

/-- Settles O3: the fields of a word that decodes are those of its instruction, and a word is its fields. -/
theorem encodingADecodedStimulusGivesItBack : Obligations.EncodingADecodedStimulusGivesItBack := by
  unfold Obligations.EncodingADecodedStimulusGivesItBack
  intro x i h
  cases x with
  | command w => exact encode_of_decodeCommand h
  | unit u =>
    cases h
    exact encode_of_decode_unit u

/-- The command an instruction is, if it is one (R86): the function units have no opcode (R92). -/
def Instr.op : Instr → Option Machine.Op
  | .init _ _ => some .init
  | .set _ _ => some .set
  | .setAll _ => some .setAll
  | .get _ => some .get
  | .getAll => some .getAll
  | .r2io _ | .io2r _ | .devaddr _ => none

/-- No command word is the input of a function unit. -/
theorem op_of_decodeCommand {w : PortWord} {i : Instr} (h : decodeCommand w = .instr i) : ∃ o, i.op = some o := by
  have hw := (encode_of_decodeCommand h).2
  cases i
  case r2io | io2r | devaddr => cases hw
  all_goals exact ⟨_, rfl⟩

/-! ### The rows of R86 -/

theorem and_eq_iff_fields (w mask m : PortWord) : w &&& mask = m ↔
    fieldOp w &&& fieldOp mask = fieldOp m ∧ fieldRsv w &&& fieldRsv mask = fieldRsv m ∧
      fieldF w &&& fieldF mask = fieldF m ∧ fieldBus w &&& fieldBus mask = fieldBus m ∧
      fieldArg w &&& fieldArg mask = fieldArg m := by
  simp only [eq_iff_fields_eq, fieldOp, fieldRsv, fieldF, fieldBus, fieldArg, BitVec.extractLsb'_and]

/-- A field under a mask of ones. -/
theorem and_ones : (∀ x : BitVec 4, x &&& 0xF#4 = x) ∧ (∀ x : BitVec 3, x &&& 7#3 = x) ∧ (∀ x : BitVec 1, x &&& 1#1 = x) ∧
    (∀ x : Byte, x &&& 0xFF#8 = x) ∧ ∀ x : Word, x &&& 0xFFFF#16 = x :=
  ⟨fun _ => BitVec.and_allOnes, fun _ => BitVec.and_allOnes, fun _ => BitVec.and_allOnes, fun _ => BitVec.and_allOnes,
    fun _ => BitVec.and_allOnes⟩

/-- A condition on a word that holds of the encoding of `i` alone holds exactly when the word decodes to `i`. -/
theorem iff_decodeCommand_of_iff_encode {w : PortWord} {i : Instr} {p : Prop} (hi : i.wf = true)
    (h : p ↔ encode i = .command w) : p ↔ decodeCommand w = .instr i := by
  rw [h, decodeCommand_eq_instr_iff, and_iff_right hi]

/-- Settles O4: a row's mask and match fix `op`, `rsv` and every field that is no operand of the row, as the encoder does. -/
theorem commandsAreSelectedByMaskAndMatch : Obligations.CommandsAreSelectedByMaskAndMatch := by
  unfold Obligations.CommandsAreSelectedByMaskAndMatch
  intro w
  have harg : field16 (w.extractLsb' 0 16).toInt = w.extractLsb' 0 16 := field16_sext16 _
  have hf : w.extractLsb' 24 1 = BitVec.ofBool (w.getLsbD 24) := fieldF_eq_ofBool w
  have hfit : fitsField (w.extractLsb' 0 16).toInt = true := fitsField_sext16 _
  refine ⟨iff_decodeCommand_of_iff_encode hfit ?_, iff_decodeCommand_of_iff_encode hfit ?_,
    iff_decodeCommand_of_iff_encode rfl ?_, iff_decodeCommand_of_iff_encode hfit ?_,
    iff_decodeCommand_of_iff_encode rfl ?_⟩ <;>
    rw [and_eq_iff_fields, encode, Stimulus.command.injEq, packCommand_eq_iff] <;>
    simp only [harg, hf, fieldOp, fieldRsv, fieldF, fieldBus, fieldArg] <;>
    simp [and_ones]

/-! ### Illegal words (R89) -/

theorem exists_ite_eq_illegal {p : Prop} [Decidable p] {r : IllegalWord} {d : Decoded} :
    (∃ why, (if p then .illegal r else d) = .illegal why) ↔ p ∨ ∃ why, d = .illegal why := by
  by_cases hp : p <;> simp [hp]

/-- A word is illegal when its opcode is reserved or a field its command does not use is not 0. -/
theorem decodeCommand_eq_illegal_iff (w : PortWord) : (∃ why, decodeCommand w = .illegal why) ↔
    opcodeOf (fieldOp w) = none ∨ fieldRsv w ≠ 0#3 ∨ (fieldF w ≠ 0#1 ∧ fieldOp w ≠ 2#4) ∨
      (fieldBus w ≠ 0#8 ∧ fieldOp w ≠ 1#4) ∨ (fieldArg w ≠ 0#16 ∧ fieldOp w = 5#4) := by
  unfold decodeCommand
  cases ho : opcodeOf (fieldOp w) with
  | none => simp
  | some o =>
    rw [opcodeOf_eq_some_iff.1 ho]
    simp only [exists_ite_eq_illegal]
    cases o <;> simp [Opcode.code]

end Sys2Proof
end

section
/-! PROOFS. The command port (R80 to R83, R87 to R92, R192): a word on the port of an idle block runs or is answered ILLEGAL, a
block in a command takes none, and a command is answered in the step that ends it. -/

namespace Sys2Proof.Machine

/-! ### What a word and a unit's input do (R81, R92) -/

/-- Settles O1, by running the decoder on each word. -/
theorem decodesTheWordsTheSpecGives : Obligations.DecodesTheWordsTheSpecGives := by
  unfold Obligations.DecodesTheWordsTheSpecGives
  decide

/-- Settles O6: with the block idle and no unit input pending, the word on the port is what is due. -/
theorem stepRunsTheCommandOnThePort : Obligations.StepRunsTheCommandOnThePort := by
  unfold Obligations.StepRunsTheCommandOnThePort
  intro s w i h
  exact step_of_run (by simp only [State.due, h.noUnit, (inProgress_eq_none_iff s).2 h.idle, h.port, h.decodes])

/-- A word that is no command is taken off the port of an idle block and answered ILLEGAL (R192). -/
theorem step_of_illegalWord {s : State} {w : PortWord} {why : IllegalWord} (hp : s.phase = .idle) (hu : s.unitPort = none)
    (hc : s.cmd = some w) (hd : decodeCommand w = .illegal why) : step s = .next ({ s with cmd := none }.raise .illegal) :=
  step_of_illegal (by simp only [State.due, hu, (inProgress_eq_none_iff s).2 hp, hc, hd])

theorem step_of_unit {s : State} {u : UnitInput} (hu : s.unitPort = some u) :
    step s = exec u.instr { s with unitPort := none } :=
  step_of_run (by simp only [State.due, hu])

/-- Settles O8: a unit's input is due before anything else. -/
theorem stepEvaluatesTheFunctionUnit : Obligations.StepEvaluatesTheFunctionUnit :=
  fun _ _ => ⟨step_of_unit, step_of_unit, step_of_unit⟩

theorem decode_of_decodeTableWord {n w : Nat} {i : Instr} (h : decodeTableWord n w = some i) :
    decode (tableStimulus n w) = .instr i := by
  unfold decodeTableWord at h
  split at h
  · cases h
    assumption
  · cases h

/-- Settles O9: a 32-bit word is put on the port of a block made ready for it, a 16-bit word on the port of R2IO. -/
theorem theWordPlacedIsTheOneThatRuns : Obligations.TheWordPlacedIsTheOneThatRuns := by
  unfold Obligations.TheWordPlacedIsTheOneThatRuns
  intro s w
  refine ⟨fun i h => ?_, fun i h => ?_⟩
  · exact stepRunsTheCommandOnThePort _ _ i ⟨rfl, decode_of_decodeTableWord h, rfl, rfl, rfl⟩
  · cases decode_of_decodeTableWord h
    exact step_of_unit rfl

/-! ### Responses (R87, R192) -/

theorem response_eq_packCommand (st : BitVec 4) (c : Byte) (d : Word) : response st c d = packCommand st 0#1 c d := by
  simp [response, packCommand]

/-- Settles O42: status, cause and data stand where a command word has `op`, `bus` and `arg`. -/
theorem responseWordFields : Obligations.ResponseWordFields := by
  unfold Obligations.ResponseWordFields
  refine ⟨fun st c d => ⟨?_, ?_, ?_, ?_⟩, rfl, rfl, fun c => ⟨rfl, rfl⟩⟩
  · rw [response_eq_packCommand]; exact fieldOp_packCommand ..
  · ext i hi
    interval_cases i <;> simp [response]
  · rw [response_eq_packCommand]; exact fieldBus_packCommand ..
  · rw [response_eq_packCommand]; exact fieldArg_packCommand ..

/-- An exception taken by an idle block without a session is its response and nothing else. -/
theorem raise_of_idle {s : State} (hp : s.phase = .idle) (hs : s.sess = false) (e : Exc) :
    s.raise e = { s with rsp := some e.response } := by
  rw [State.raise, closeSession_of_closed hs, ← hp]

/-- Settles O5: the decoder's own list of reasons, and `raise` for the answer. -/
theorem illegalWordsAreAnsweredIllegal : Obligations.IllegalWordsAreAnsweredIllegal := by
  unfold Obligations.IllegalWordsAreAnsweredIllegal
  intro w
  refine ⟨?_, fun ⟨why, hd⟩ s hp hs hu hc => ?_⟩
  · have hf : fieldF w ≠ 0#1 ↔ w.getLsbD 24 = true := by
      rw [fieldF_eq_ofBool]
      cases w.getLsbD 24 <;> decide
    rw [decodeCommand_eq_illegal_iff, opcodeOf_eq_none_iff, hf]
    rfl
  · rw [step_of_illegalWord hp hu hc hd, raise_of_idle (s := { s with cmd := none }) hp hs]
    rfl

/-! ### A block in a command takes no word (R83) -/

theorem Transition.cmd_eq {i : Instr} {s t : State} (h : Transition i s t) : t.cmd = s.cmd := by
  cases h <;> simp

theorem blockReset_cmd (s : State) (u : Unspecified) (f : Option Word) : (s.blockReset u f).cmd = s.cmd := by
  have ha : (s.abandon f).cmd = s.cmd := by
    unfold State.abandon
    split <;> rfl
  exact (closeSession_cmd _).trans ha

/-- No move of the outside world takes a word off the command port. -/
theorem envStep_cmd {s t : State} {w : PortWord} (hc : s.cmd = some w) (h : s.envStep = .next t) : t.cmd = some w := by
  unfold State.envStep at h
  split at h
  case h_2 =>
    rw [hc] at h
    cases h
  case h_9 u f rest _ =>
    cases h
    exact (blockReset_cmd { s with inputs := rest } u f).trans hc
  all_goals
    cases h
    exact hc

theorem step_cmd_of_busy {s t : State} {w : PortWord} (hb : s.phase ≠ .idle) (hc : s.cmd = some w) (h : step s = .next t) :
    t.cmd = some w := by
  rcases due_cases s with ⟨u, -, hd⟩ | ⟨i, a, rest, -, -, -, hd⟩ | ⟨_, _, -, hp, -⟩ | ⟨_, _, -, hp, -⟩ | ⟨-, -, -, hd⟩
  · rw [step_of_run hd] at h
    exact (exec_next h).cmd_eq.trans hc
  · rw [step_of_run hd] at h
    exact (exec_next h).cmd_eq.trans hc
  · exact absurd hp hb
  · exact absurd hp hb
  · rw [step_of_environment hd] at h
    exact envStep_cmd hc h

/-- Inside a command the meaning of every other command is the refusal. -/
theorem exec_of_other_command {i : Instr} {s : State} {o : Op} (hi : i.op = some o) (hb : s.phase ≠ .idle)
    (ho : s.phase.command ≠ some o) : exec i s = .refused .commandInProgress := by
  cases i <;> cases hi
  case init => cases hp : s.phase <;> simp_all [exec, execInit, Phase.command]
  case set => cases hp : s.phase <;> simp_all [exec, execSet, Phase.command]
  case setAll => cases hp : s.phase <;> simp_all [exec, execSetAll, Phase.command]
  case get => cases hp : s.phase <;> simp_all [exec, execGet, Phase.command]
  case getAll => cases hp : s.phase <;> simp_all [exec, execGetAll, Phase.command]

/-- Settles O10: what is due in a command is a unit, the command itself or the outside world, none of which takes the word. -/
theorem busyBlockAcceptsNoCommand : Obligations.BusyBlockAcceptsNoCommand := by
  unfold Obligations.BusyBlockAcceptsNoCommand
  intro s hb
  exact ⟨fun _ _ => step_cmd_of_busy hb, fun _ _ => exec_of_other_command rfl hb, fun _ _ => exec_of_other_command rfl hb,
    fun _ => exec_of_other_command rfl hb, fun _ => exec_of_other_command rfl hb, exec_of_other_command rfl hb⟩

/-! ### One response for each command (R82) -/

/-- Inside a command, with the response port empty, the transitions back to IDLE are those that respond. -/
theorem Transition.idle_iff_responds_of_busy {i : Instr} {s t : State} (h : Transition i s t) (hb : s.phase ≠ .idle)
    (hr : s.rsp = none) : t.phase = .idle ↔ t.rsp.isSome = true := by
  cases h
  case reject | acceptInit | acceptSet | acceptSetAll | acceptGet | acceptGetAll => contradiction
  all_goals simp [hb, hr]

/-- At a command's acceptance the block stays in IDLE exactly when it rejects the command with a response. -/
theorem Transition.idle_iff_responds_of_idle {i : Instr} {s t : State} {o : Op} (h : Transition i s t)
    (hi : i.op = some o) (hp : s.phase = .idle) : t.phase = .idle ↔ t.rsp.isSome = true := by
  cases h
  case r2io | io2r | devaddr => cases hi
  case reject | acceptInit | acceptSet | acceptSetAll | acceptGet | acceptGetAll => simp
  -- Every other transition starts inside a command.
  all_goals simp_all [Phase.request]

/-- Settles O45: the invariant keeps the response port empty inside a command. -/
theorem oneResponsePerCommand : Obligations.OneResponsePerCommand := by
  unfold Obligations.OneResponsePerCommand
  intro s t hi hu h
  refine ⟨fun hb hr => ?_, fun hp hc => ?_⟩
  · have hrsp := hi.silent hb
    by_cases ha : ∃ a rest, s.inputs = .answer a :: rest
    · obtain ⟨a, rest, ha⟩ := ha
      obtain ⟨i, t', -, hstep, ht⟩ := step_of_busy_answer hb hu ha
      rw [h] at hstep
      cases hstep
      exact ht.idle_iff_responds_of_busy hb hrsp
    · obtain ⟨c, u, us, rest, m, rfl⟩ := step_of_waiting hb (fun a rest e => ha ⟨a, rest, e⟩) hr h
      simp [hb, hrsp]
  · obtain ⟨w, hc⟩ := Option.isSome_iff_exists.1 hc
    cases hd : decodeCommand w with
    | instr i =>
      obtain ⟨o, ho⟩ := op_of_decodeCommand hd
      have hs : s.sess = false := by simpa [hp] using hi.session
      rw [stepRunsTheCommandOnThePort s w i ⟨hc, hd, hp, hs, hu⟩] at h
      exact (exec_next h).idle_iff_responds_of_idle ho hp
    | illegal why =>
      rw [step_of_illegalWord hp hu hc hd] at h
      cases h
      simp

end Sys2Proof.Machine
end

section
/-! PROOFS. The Bit Remapper (R110 to R116): each unit ORs together one word for each set bit of its input, and the words are
such that the result is the reversal of the input's 16 bits. -/

namespace Sys2Proof.Machine

/-! ### The table (R110) -/

/-- Settles O12, by reading the table. -/
theorem remapTableIsDescendingPowersOfTwo : Obligations.RemapTableIsDescendingPowersOfTwo := ⟨rfl, by decide⟩

theorem zipIdx_remapTable : remapTable.zipIdx = (List.range 16).map fun i => (BitVec.twoPow 16 (15 - i), i) := by decide

/-! ### Both units reverse the bits of their input (R111, R112, R115) -/

/-- ORing together those words of a list that meet a condition sets the bits that any of them has. -/
theorem getLsbD_foldl_or_iff {α : Type} (c : α → Prop) [DecidablePred c] (f : α → Word) (l : List α) (r : Word) (j : Nat) :
    (l.foldl (fun r x => if c x then r ||| f x else r) r).getLsbD j = true ↔
      r.getLsbD j = true ∨ ∃ x ∈ l, c x ∧ (f x).getLsbD j = true := by
  induction l generalizing r with
  | nil => simp
  | cons x l ih => by_cases h : c x <;> simp [ih, h, or_assoc]

/-- A mask meets a table entry when it has the entry's one bit. -/
theorem and_twoPow_ne_zero_iff (v : Word) {k : Nat} (hk : k < 16) : v &&& BitVec.twoPow 16 k ≠ 0#16 ↔ v.getLsbD k = true := by
  have nonzero : BitVec.twoPow 16 k ≠ 0#16 := by
    intro h
    simpa [hk] using congrArg (BitVec.getLsbD · k) h
  rw [BitVec.and_twoPow]
  split
  case isTrue hv => exact iff_of_true nonzero hv
  case isFalse hv => exact iff_of_false (· rfl) hv

/-- The table entry with bit j is entry 15 - j, and R2IO takes it for bit 15 - j of the logical mask. -/
theorem getLsbD_r2io (v : Word) {j : Nat} (hj : j < 16) : (r2io v).getLsbD j = v.getLsbD (15 - j) := by
  have taken : (r2io v).getLsbD j = true ↔ ∃ i < 16, v.getLsbD i = true ∧ 15 - i = j := by
    rw [r2io, getLsbD_foldl_or_iff (fun x => v.getLsbD x.2 = true) Prod.fst, zipIdx_remapTable]
    simp [show ∀ i, 15 - i < 16 by omega]
  rw [Bool.eq_iff_iff, taken]
  constructor
  · rintro ⟨i, hi, hv, rfl⟩
    rwa [Nat.sub_sub_self (by omega)]
  · exact fun hv => ⟨15 - j, by omega, hv, by omega⟩

/-- IO2R ORs `1 << j` for entry j, which meets the physical mask in bit 15 - j. -/
theorem getLsbD_io2r (v : Word) {j : Nat} (hj : j < 16) : (io2r v).getLsbD j = v.getLsbD (15 - j) := by
  have taken : (io2r v).getLsbD j = true ↔ v &&& BitVec.twoPow 16 (15 - j) ≠ 0#16 := by
    rw [io2r, getLsbD_foldl_or_iff (fun x : Word × Nat => v &&& x.1 ≠ 0#16) (fun x => 1#16 <<< x.2), zipIdx_remapTable]
    simp +contextual [← BitVec.twoPow_eq, hj]
  rw [Bool.eq_iff_iff, taken, and_twoPow_ne_zero_iff v (by omega)]

@[simp] theorem getElem_r2io (v : Word) {j : Nat} (hj : j < 16) : (r2io v)[j] = v[15 - j] := getLsbD_r2io v hj

@[simp] theorem getElem_io2r (v : Word) {j : Nat} (hj : j < 16) : (io2r v)[j] = v[15 - j] := getLsbD_io2r v hj

theorem r2io_eq_io2r (v : Word) : r2io v = io2r v := by
  ext j hj
  simp

theorem r2io_involutive : Function.Involutive r2io := by
  intro v
  ext j hj
  have back : 15 - (15 - j) = j := by omega
  simp [back]

/-- Settles O13, bit by bit. -/
theorem remapReversesTheSixteenBits : Obligations.RemapReversesTheSixteenBits := fun v =>
  ⟨fun _ => getLsbD_r2io v, r2io_eq_io2r v, r2io_involutive v⟩

/-- Settles O14: both units are one function, which is its own inverse. -/
theorem remapUnitsAreMutualInverses : Obligations.RemapUnitsAreMutualInverses := by
  unfold Obligations.RemapUnitsAreMutualInverses
  rw [← funext r2io_eq_io2r]
  exact ⟨r2io_involutive, r2io_involutive, r2io_involutive.bijective, r2io_involutive.bijective⟩

/-- Settles O17: the units' meanings, and one function for both outputs. -/
theorem remapUnitsAnswerTheReversedWord : Obligations.RemapUnitsAnswerTheReversedWord := fun v s =>
  ⟨r2io v, fun _ => getLsbD_r2io v, rfl, by rw [r2io_eq_io2r]; rfl⟩

/-! ### One relay (R114) -/

theorem r2io_twoPow {i : Nat} (hi : i < 16) : r2io (BitVec.twoPow 16 i) = BitVec.twoPow 16 (15 - i) := by
  ext j hj
  have reversed : 15 - j = i ↔ j = 15 - i := by omega
  simp [reversed]

/-- Settles O15: relay r is bit r - 1 of the logical mask. -/
theorem remapOfOneRelay : Obligations.RemapOfOneRelay := by
  unfold Obligations.RemapOfOneRelay
  simp only [← BitVec.twoPow_eq]
  refine ⟨fun i hi => r2io_twoPow hi, fun r h1 h16 => ?_⟩
  rw [r2io_twoPow (by omega), show 15 - (r - 1) = 16 - r by omega]

/-! ### Bit operations (R116) -/

/-- Reversing the indices 0 to 15 keeps how many of them satisfy a predicate. -/
theorem countP_range_sub (p : Nat → Bool) : ((List.range 16).countP fun j => p (15 - j)) = (List.range 16).countP p := by
  have reversed : (List.range 16).reverse = (List.range 16).map (15 - ·) := by decide
  rw [← List.countP_reverse (l := List.range 16) (p := p), reversed, List.countP_map]
  rfl

/-- Settles O16: the operations are bitwise, the two constant words are their own reversals, and the set bits are those of the
input in the other order. -/
theorem remapDistributesOverBitOperations : Obligations.RemapDistributesOverBitOperations := by
  unfold Obligations.RemapDistributesOverBitOperations
  intro a b
  refine ⟨?_, ?_, ?_, ?_, ?_, ?_, ?_⟩
  · ext j hj; simp
  · ext j hj; simp
  · ext j hj; simp
  · ext j hj; simp
  · exact r2io_involutive.injective.eq_iff' (by decide)
  · exact r2io_involutive.injective.eq_iff' (by decide)
  · rw [← countP_range_sub (a.getLsbD ·)]
    exact List.countP_congr fun j hj => by rw [getLsbD_r2io a (List.mem_range.1 hj)]

end Sys2Proof.Machine
end

section
/-! PROOFS. Device Addressing as a function unit (R131). -/

namespace Sys2Proof.Machine

/-- DEVADDR with its check the other way round: the address is for the stack levels inside 0 to 7. -/
theorem devaddr_eq_ite (x : Int) :
    devaddr x = if 0 ≤ x ∧ x ≤ 7 then some (0x20#8 + (0x07#8 ^^^ BitVec.ofInt 8 x)) else none := by
  split
  case isTrue legal => exact devaddr_of_legal legal.1 legal.2
  case isFalse illegal => exact Option.eq_none_iff_forall_ne_some.2 fun _ h => illegal (legal_of_devaddr h)

/-- Settles O18: the unit's meaning with `devaddr_eq_ite` for its output, and the table by running DEVADDR on each level. -/
theorem devaddrAnswersTheDeviceAddress : Obligations.DevaddrAnswersTheDeviceAddress := by
  unfold Obligations.DevaddrAnswersTheDeviceAddress
  refine ⟨fun x s => ?_, by decide⟩
  rw [← devaddr_eq_ite]
  rfl

end Sys2Proof.Machine
end

section
/-! PROOFS. INIT step by step (R141 to R143) and as a whole (R145). -/

namespace Sys2Proof.Machine

/-! ### A transaction that ends its command, with the session held -/

theorem raise_answered_of_open {s : State} (hs : s.sess = true) (r : BusRecord) (e : Exc) : (s.answered r).raise e =
    { s with inputs := s.inputs.tail, sess := false, xport := .closed :: r :: s.xport, rsp := some e.response,
             phase := .idle } := by
  rw [State.raise, closeSession_of_open (s := s.answered r) hs]
  rfl

theorem returnOk_answered_of_open {s : State} (hs : s.sess = true) (r : BusRecord) (d : Word) :
    (s.answered r).returnOk d =
      { s with inputs := s.inputs.tail, sess := false, xport := .closed :: r :: s.xport,
               rsp := some (response statusOk 0x00#8 d), phase := .idle } := by
  rw [State.returnOk, closeSession_of_open (s := s.answered r) hs]
  rfl

/-! ### The steps of INIT -/

section

variable {stack : Int} {bus : Byte} {s : State}

theorem exec_init_of_legal {dev : Byte} (hp : s.phase = .idle) (hc : s.constructed = false)
    (legal : devaddr stack = some dev) : exec (.init stack bus) s =
      .next ({ s with stack := BitVec.ofInt 3 stack, busId := bus, devAddr := dev }.startCommand .init .initRd) := by
  simp [exec, execInit, hp, initAccept, hc, legal]

theorem exec_init_of_illegal (hp : s.phase = .idle) (hc : s.constructed = false) (illegal : devaddr stack = none) :
    exec (.init stack bus) s = .next (s.raise .invalidArgument) := by
  simp [exec, execInit, hp, initAccept, hc, illegal]

theorem exec_init_of_initRd (hp : s.phase = .initRd) : exec (.init stack bus) s = initRead s := by
  simp only [exec, execInit, hp]

theorem exec_init_of_initWr (hp : s.phase = .initWr) : exec (.init stack bus) s = initWrite s := by
  simp only [exec, execInit, hp]

end

section

variable {s : State} {c : Cause} {left : Word} {rest : List Input}

theorem initRead_of_err (hin : s.inputs = .answer (.err c left) :: rest) : initRead s =
    .next ((s.answered (.readErr s.devAddr Reg.configuration.offset c)).raise (.initializationError c)) := by
  rw [initRead, memRead_of_err _ hin]

theorem initRead_of_zero (hin : s.inputs = .answer .ok :: rest)
    (zero : s.mem.readWord (s.target .configuration) = 0x0000#16) : initRead s =
      .next (({ s with constructed := true }.answered
        (.readOk s.devAddr Reg.configuration.offset 0x0000#16)).returnOk 0x0000#16) := by
  simp only [initRead, memRead_of_ok _ hin, zero, if_true]
  rfl

theorem initRead_of_nonzero (hin : s.inputs = .answer .ok :: rest) {w : Word}
    (hw : s.mem.readWord (s.target .configuration) = w) (nonzero : w ≠ 0x0000#16) :
    initRead s = .next { s.answered (.readOk s.devAddr Reg.configuration.offset w) with tmp := w, phase := .initWr } := by
  simp only [initRead, memRead_of_ok _ hin, hw, if_neg nonzero]

theorem initWrite_of_err (hin : s.inputs = .answer (.err c left) :: rest) : initWrite s =
    .next (({ s with mem := s.mem.writeWord (s.target .configuration) left }.answered
      (.writeErr s.devAddr Reg.configuration.offset 0x0000#16 c)).raise (.initializationError c)) := by
  rw [initWrite, memWrite_of_err _ _ hin]

theorem initWrite_of_ok (hin : s.inputs = .answer .ok :: rest) : initWrite s =
    .next (({ s with mem := s.mem.writeWord (s.target .configuration) 0x0000#16, constructed := true }.answered
      (.writeOk s.devAddr Reg.configuration.offset 0x0000#16)).returnOk 0x0000#16) := by
  rw [initWrite, memWrite_of_ok _ _ hin]
  rfl

end

/-- Settles O20: the two answers of DEVADDR, the second taken as an exception of an idle block. -/
theorem initAcceptance : Obligations.InitAcceptance := by
  unfold Obligations.InitAcceptance
  intro stack bus s hp hc
  refine ⟨fun h₀ h₇ => exec_init_of_legal hp hc (devaddr_of_legal h₀ h₇), fun illegal hs => ?_⟩
  rw [exec_init_of_illegal hp hc (if_pos illegal), raise_of_idle hp hs]
  rfl

/-- Settles O21: the outcomes of the read transaction, the word read compared with zero. -/
theorem initReadStep : Obligations.InitReadStep := by
  unfold Obligations.InitReadStep
  intro stack bus s rest hp hs
  rw [exec_init_of_initRd hp]
  refine ⟨fun c left hin => ?_, fun hin w hw => ⟨?_, fun nonzero => ?_⟩⟩
  · simp only [initRead_of_err hin, raise_answered_of_open, hs, hin]
    rfl
  · rintro rfl
    simp only [initRead_of_zero hin hw, returnOk_answered_of_open, hs, hin]
    rfl
  · rw [initRead_of_nonzero hin hw nonzero, State.answered, hin]
    rfl

/-- Settles O22: the outcomes of the write transaction. -/
theorem initWriteStep : Obligations.InitWriteStep := by
  unfold Obligations.InitWriteStep
  intro stack bus s rest hp hs
  rw [exec_init_of_initWr hp]
  refine ⟨fun c left hin => ?_, fun hin => ?_⟩
  · simp only [initWrite_of_err hin, raise_answered_of_open, hs, hin]
    rfl
  · simp only [initWrite_of_ok hin, returnOk_answered_of_open, hs, hin]
    rfl

/-! ### INIT as a whole -/

theorem run_one_of_step {s t : State} (h : step s = .next t) : Host.Core.run core 1 s = .next t :=
  run_succ_of_step h 0

theorem run_two_of_steps {s t u : State} (h : step s = .next t) (h' : step t = .next u) :
    Host.Core.run core 2 s = .next u :=
  (run_succ_of_step h 1).trans (run_one_of_step h')

theorem run_three_of_steps {s t u v : State} (h : step s = .next t) (h' : step t = .next u) (h'' : step u = .next v) :
    Host.Core.run core 3 s = .next v :=
  (run_succ_of_step h 2).trans (run_two_of_steps h' h'')

/-- Where an accepted INIT waits for its read. -/
def State.initReadDue (s : State) (stack : Int) (bus dev : Byte) : State :=
  { s with cmd := none, stack := BitVec.ofInt 3 stack, busId := bus, devAddr := dev, op := .init, sess := true,
           xport := .opened bus :: s.xport, phase := .initRd, rsp := none }

/-- Where INIT, having read `w`, waits for its write, with the moves `rest` to come. -/
def State.initWriteDue (s : State) (stack : Int) (bus dev : Byte) (w : Word) (rest : List Input) : State :=
  { s.initReadDue stack bus dev with
    inputs := rest, xport := .readOk dev 0x06#8 w :: .opened bus :: s.xport, tmp := w, phase := .initWr }

section

variable {s : State} {stack : Int} {bus dev : Byte} {a : Answer} {rest : List Input}

theorem step_to_initReadDue {word : PortWord} (hr : s.ready word (.init stack bus)) (hc : s.constructed = false)
    (legal : devaddr stack = some dev) : step s = .next (s.initReadDue stack bus dev) := by
  rw [stepRunsTheCommandOnThePort s word _ hr, exec_init_of_legal (s := { s with cmd := none }) hr.idle hc legal]
  rfl

/-- The answer to the read due resumes INIT. -/
theorem step_initReadDue (hu : s.unitPort = none) (hin : s.inputs = .answer a :: rest) :
    step (s.initReadDue stack bus dev) =
      exec (.init (BitVec.ofInt 3 stack).toNat bus) (s.initReadDue stack bus dev) :=
  (stepResumesTheCommandInProgress (s.initReadDue stack bus dev) a rest hu hin).1 (.inl rfl)

/-- The answer to the write due resumes INIT. -/
theorem step_initWriteDue (hu : s.unitPort = none) (w : Word) :
    step (s.initWriteDue stack bus dev w (.answer a :: rest)) =
      exec (.init (BitVec.ofInt 3 stack).toNat bus) (s.initWriteDue stack bus dev w (.answer a :: rest)) :=
  (stepResumesTheCommandInProgress (s.initWriteDue stack bus dev w (.answer a :: rest)) a rest hu rfl).1 (.inr rfl)

theorem step_to_initWriteDue (hu : s.unitPort = none) (hin : s.inputs = .answer .ok :: rest)
    (nonzero : s.device bus dev .configuration ≠ 0x0000#16) : step (s.initReadDue stack bus dev) =
      .next (s.initWriteDue stack bus dev (s.device bus dev .configuration) rest) := by
  rw [step_initReadDue hu hin]
  exact ((initReadStep _ _ (s.initReadDue stack bus dev) rest rfl rfl).2 hin _ rfl).2 nonzero

end

/-- Settles O23: the acceptance, the read step and the write step one after the other. -/
theorem initOutcomes : Obligations.InitOutcomes := by
  unfold Obligations.InitOutcomes
  intro s word stack bus rest hr hc
  refine ⟨fun illegal => run_one_of_step ?_, ?_⟩
  · rw [stepRunsTheCommandOnThePort s word _ hr]
    exact (initAcceptance stack bus { s with cmd := none } hr.idle hc).2 illegal hr.closed
  rintro dev legal cfg rfl
  have accept := step_to_initReadDue hr hc legal
  have hu := hr.noUnit
  have readStep := initReadStep (BitVec.ofInt 3 stack).toNat bus (s.initReadDue stack bus dev) rest rfl rfl
  have writeStep moves := initWriteStep (BitVec.ofInt 3 stack).toNat bus
    (s.initWriteDue stack bus dev (s.device bus dev .configuration) moves) rest rfl rfl
  refine ⟨fun c left hin => ?_, fun hin zero => ?_, fun hin nonzero => ?_, fun c left hin nonzero => ?_⟩
  · have read := (step_initReadDue hu hin).trans (readStep.1 c left hin)
    exact ⟨_, run_two_of_steps accept read, ⟨rfl, rfl, rfl, rfl⟩, hc, rfl, rfl, rfl⟩
  · have read := (step_initReadDue hu hin).trans ((readStep.2 hin _ zero).1 rfl)
    exact ⟨_, run_two_of_steps accept read, ⟨rfl, rfl, rfl, rfl⟩, rfl, rfl, rfl, rfl, rfl, rfl, rfl⟩
  · have write := (step_initWriteDue hu _).trans ((writeStep _).2 rfl)
    exact ⟨_, run_three_of_steps accept (step_to_initWriteDue hu hin nonzero) write, ⟨rfl, rfl, rfl, rfl⟩,
      rfl, Memory.readWord_writeWord_self _ _ _, sameBytesBut_setDevice s bus dev .configuration 0x0000#16,
      rfl, rfl, rfl, rfl, rfl⟩
  · have write := (step_initWriteDue hu _).trans ((writeStep _).1 c left rfl)
    exact ⟨_, run_three_of_steps accept (step_to_initWriteDue hu hin nonzero) write, ⟨rfl, rfl, rfl, rfl⟩,
      hc, Memory.readWord_writeWord_self _ _ _, sameBytesBut_setDevice s bus dev .configuration left, rfl, rfl⟩

end Sys2Proof.Machine
end

section
/-! PROOFS. SET and SET_ALL step by step: the operands and the word SET writes (R151, R154), acceptance (R151, R160), the read
step (R152) and the write steps (R153, R161). -/

namespace Sys2Proof.Machine

/-! ### The operands of SET -/

theorem relayLegal_iff {relay : Int} : relayLegal relay = true ↔ 1 ≤ relay ∧ relay ≤ 16 := by
  rw [relayLegal, Bool.and_eq_true, decide_eq_true_iff, decide_eq_true_iff]
  rfl

/-- ARG, counted from the other end of the word, is the line of the relay. -/
theorem relayBit_line {relay : Int} (h₁ : 1 ≤ relay) (h₁₆ : relay ≤ 16) :
    15 - (relayBit relay).toNat = 16 - relay.toNat := by
  rw [relayBit, BitVec.toNat_ofInt]
  omega

/-! ### The word SET writes (R153, R154) -/

theorem getLsbD_changeBit (l : Word) {k : Nat} (hk : k < 16) (on : Bool) (j : Nat) :
    (changeBit l k on).getLsbD j = if j = k then on else l.getLsbD j := by
  unfold changeBit
  rw [← BitVec.twoPow_eq]
  by_cases h : j = k
  case pos => subst h; cases on <;> simp [hk]
  case neg =>
    cases on with
    | true => simp [h, Ne.symm h]
    | false => simpa [h, Ne.symm h] using BitVec.lt_of_getLsbD

/-- Both reversals together put the one bit changed at the other end of the word and leave the rest in place. -/
theorem setWord_eq_changeBit (w : Word) (arg : BitVec 4) (on : Bool) :
    setWord w arg on = changeBit w (15 - arg.toNat) on := by
  have harg : arg.toNat < 16 := arg.isLt
  apply BitVec.eq_of_getLsbD_eq
  intro j hj
  have there : 15 - j = arg.toNat ↔ j = 15 - arg.toNat := by omega
  have back : 15 - (15 - j) = j := by omega
  rw [setWord, getLsbD_r2io _ hj, getLsbD_changeBit _ harg, getLsbD_changeBit _ (by omega), getLsbD_io2r _ (by omega), back]
  simp only [there]

theorem setWord_relayBit (w : Word) {relay : Int} (h₁ : 1 ≤ relay) (h₁₆ : relay ≤ 16) (on : Bool) :
    setWord w (relayBit relay) on = changeBit w (16 - relay.toNat) on := by
  rw [setWord_eq_changeBit, relayBit_line h₁ h₁₆]

/-- Settles O27: SET's word is the change of one physical bit, read bit by bit. -/
theorem setWordInThePhysicalDomain : Obligations.SetWordInThePhysicalDomain := by
  unfold Obligations.SetWordInThePhysicalDomain
  intro w r on h₁ h₁₆
  rw [setWord_relayBit w (relay := r) (by omega) (by omega), Int.toNat_natCast]
  refine ⟨rfl, ?_, fun b _ hb => ?_⟩
  · rw [getLsbD_changeBit _ (by omega), if_pos rfl]
  · rw [getLsbD_changeBit _ (by omega), if_neg hb]

/-! ### Acceptance -/

section

variable {s : State} {relay : Int} {on : Bool}

theorem exec_set_of_legal (hp : s.phase = .idle) (hc : s.constructed = true) (legal : relayLegal relay = true) :
    exec (.set relay on) s = .next ({ s with arg := relayBit relay, flag := on }.startCommand .set .setRd) := by
  simp [exec, execSet, hp, setAccept, hc, legal]

theorem exec_set_of_illegal (hp : s.phase = .idle) (hc : s.constructed = true) (illegal : ¬relayLegal relay = true) :
    exec (.set relay on) s = .next (s.raise .invalidArgument) := by
  simp [exec, execSet, hp, setAccept, hc, illegal]

theorem exec_setAll_of_idle {mask : Word} (hp : s.phase = .idle) (hc : s.constructed = true) :
    exec (.setAll mask) s = .next ({ s with data := mask }.startCommand .setAll .setAllWr) := by
  simp [exec, execSetAll, hp, setAllAccept, hc]

end

/-- Settles O24: the two answers of the range check, the second taken as an exception of an idle block. -/
theorem setAcceptance : Obligations.SetAcceptance := by
  unfold Obligations.SetAcceptance
  intro relay on s hp hc
  refine ⟨fun h₁ h₁₆ => exec_set_of_legal hp hc (relayLegal_iff.2 ⟨h₁, h₁₆⟩), fun illegal hs => ?_⟩
  have outside : ¬relayLegal relay = true := by
    rw [relayLegal_iff]
    omega
  rw [exec_set_of_illegal hp hc outside, raise_of_idle hp hs]
  rfl

/-- Settles O31: SET_ALL has no range check. -/
theorem setAllAcceptance : Obligations.SetAllAcceptance := fun _ _ => exec_setAll_of_idle

/-! ### The read step -/

theorem exec_set_of_setRd {s : State} {relay : Int} {on : Bool} (hp : s.phase = .setRd) :
    exec (.set relay on) s = setRead s := by
  simp only [exec, execSet, hp]

/-- Settles O25: the outcomes of the read transaction. -/
theorem setReadStep : Obligations.SetReadStep := by
  unfold Obligations.SetReadStep
  intro relay on s rest hp hs
  rw [exec_set_of_setRd hp, setRead]
  refine ⟨fun c left hin => ?_, ?_⟩
  · simp only [memRead_of_err _ hin, raise_answered_of_open hs, hin]
    rfl
  · rintro hin w rfl
    simp only [memRead_of_ok _ hin, State.answered, hin]
    rfl

/-! ### The write steps -/

/-- The write of `v` to OUTPUT with which SET and SET_ALL both end. -/
def State.writeOutput (s : State) (v : Word) : Host.Outcome State Fault Refusal :=
  match s.memWrite .output v with
  | .waiting => .next s
  | .err c s' => .next (s'.raise (.operationError c))
  | .ok _ s' => .next (s'.returnOk 0x0000#16)

theorem setWrite_eq_writeOutput (s : State) : setWrite s = s.writeOutput (setWord s.tmp s.arg s.flag) := rfl

theorem setAllWrite_eq_writeOutput (s : State) : setAllWrite s = s.writeOutput (r2io s.data) := rfl

section

variable {s : State} {rest : List Input} {v : Word}

theorem writeOutput_of_err {c : Cause} {left : Word} (hs : s.sess = true)
    (hin : s.inputs = .answer (.err c left) :: rest) : s.writeOutput v = .next { s with
      inputs := rest, sess := false, xport := .closed :: .writeErr s.devAddr 0x02#8 v c :: s.xport,
      mem := s.mem.writeWord (regAddr s.busId s.devAddr .output) left,
      rsp := some (response 0x3#4 c.code 0x0000#16), phase := .idle } := by
  simp only [State.writeOutput, memWrite_of_err _ _ hin, raise_answered_of_open, hs, hin]
  rfl

theorem writeOutput_of_ok (hs : s.sess = true) (hin : s.inputs = .answer .ok :: rest) : s.writeOutput v = .next { s with
    inputs := rest, sess := false, xport := .closed :: .writeOk s.devAddr 0x02#8 v :: s.xport,
    mem := s.mem.writeWord (regAddr s.busId s.devAddr .output) v,
    rsp := some 0x00000000#32, phase := .idle } := by
  simp only [State.writeOutput, memWrite_of_ok _ _ hin, returnOk_answered_of_open, hs, hin]
  rfl

theorem exec_set_of_setWr {relay : Int} {on : Bool} (hp : s.phase = .setWr) :
    exec (.set relay on) s = setWrite s := by
  simp only [exec, execSet, hp]

theorem exec_setAll_of_setAllWr {mask : Word} (hp : s.phase = .setAllWr) :
    exec (.setAll mask) s = setAllWrite s := by
  simp only [exec, execSetAll, hp]

end

/-- Settles O26: the outcomes of the write transaction, its value in the physical form of R154. -/
theorem setWriteStep : Obligations.SetWriteStep := by
  unfold Obligations.SetWriteStep
  rintro relay on s rest hp hs _ rfl
  rw [exec_set_of_setWr hp, setWrite_eq_writeOutput, setWord_eq_changeBit]
  exact ⟨fun _ _ => writeOutput_of_err hs, writeOutput_of_ok hs⟩

/-- Settles O32: the outcomes of the write transaction, which no read precedes. -/
theorem setAllWriteStep : Obligations.SetAllWriteStep := by
  unfold Obligations.SetAllWriteStep
  intro mask s rest hp hs
  rw [exec_setAll_of_setAllWr hp, setAllWrite_eq_writeOutput]
  exact ⟨fun _ _ => writeOutput_of_err hs, writeOutput_of_ok hs⟩

end Sys2Proof.Machine
end

section
/-! PROOFS. GET and GET_ALL run from the command port with an answer to come (R171 to R173, R176, R177), for the commands that
are followed by one (R157, R162). -/

namespace Sys2Proof.Machine

/-! ### A step that presents a command, and runs that follow one another -/

theorem run_add {s t : State} {m : Nat} (n : Nat) (h : Host.Core.run core m s = .next t) :
    Host.Core.run core (m + n) s = Host.Core.run core n t := by
  induction m generalizing s with
  | zero => cases h; rw [Nat.zero_add]
  | succ m ih =>
    cases hs : step s with
    | next u =>
      rw [run_succ_of_step hs] at h
      rw [Nat.succ_add, run_succ_of_step hs, ih h]
    | fault r => nomatch r
    | refused r =>
      have stop : core.step s = .refused r := hs
      simp [Host.Core.run, stop] at h

/-- The host presents a command word where no step of the block is due: the word is on the port. -/
theorem step_of_presented {s : State} {w : PortWord} {rest : List Input} (hu : s.unitPort = none)
    (hc : s.cmd = none) (hin : s.inputs = .command w :: rest) :
    step s = .next { s with cmd := some w, inputs := rest } := by
  rw [step_of_move hu (fun _ => hc) (by simp [hin]), State.envStep, hin, hc]

/-! ### GET and GET_ALL -/

/-- The response of a command that ends successfully is its data (R87, R88). -/
theorem response_ok_data (d : Word) : response statusOk 0x00#8 d = d.setWidth 32 := by
  simp [response, statusOk]

theorem response_ok_boolData (b : Bool) :
    response statusOk 0x00#8 (boolData b) = if b then 0x00000001#32 else 0x00000000#32 := by
  cases b <;> rfl

section

variable {s : State} {relay : Int} {rest : List Input}

theorem exec_get_of_legal (hp : s.phase = .idle) (hc : s.constructed = true) (legal : relayLegal relay = true) :
    exec (.get relay) s = .next ({ s with arg := relayBit relay }.startCommand .get .getRd) := by
  simp [exec, execGet, hp, getAccept, hc, legal]

theorem exec_getAll_of_idle (hp : s.phase = .idle) (hc : s.constructed = true) :
    exec .getAll s = .next (s.startCommand .getAll .getAllRd) := by
  simp [exec, execGetAll, hp, getAllAccept, hc]

theorem exec_get_of_getRd (hp : s.phase = .getRd) : exec (.get relay) s = getRead s := by
  simp only [exec, execGet, hp]

theorem exec_getAll_of_getAllRd (hp : s.phase = .getAllRd) : exec .getAll s = getAllRead s := by
  simp only [exec, execGetAll, hp]

theorem getRead_of_ok (hin : s.inputs = .answer .ok :: rest) :
    getRead s = .next ((s.answered (.readOk s.devAddr 0x02#8 (s.device s.busId s.devAddr .output))).returnOk
      (boolData ((io2r (s.device s.busId s.devAddr .output)).getLsbD s.arg.toNat))) := by
  rw [getRead, memRead_of_ok _ hin]
  rfl

theorem getAllRead_of_ok (hin : s.inputs = .answer .ok :: rest) :
    getAllRead s = .next ((s.answered (.readOk s.devAddr 0x02#8 (s.device s.busId s.devAddr .output))).returnOk
      (io2r (s.device s.busId s.devAddr .output))) := by
  rw [getAllRead, memRead_of_ok _ hin]
  rfl

/-- GET of a legal relay, its read answered, responds with the relay's bit of OUTPUT. -/
theorem run_get_of_ready {word : PortWord} (hr : s.ready word (.get relay)) (hc : s.constructed = true) (h₁ : 1 ≤ relay)
    (h₁₆ : relay ≤ 16) (hin : s.inputs = .answer .ok :: rest) : ∃ t, Host.Core.run core 2 s = .next t ∧
      t.ended (response statusOk 0x00#8 (boolData ((s.device s.busId s.devAddr .output).getLsbD (16 - relay.toNat)))) ∧
      t.inputs = rest := by
  have accept : step s = .next ({ s with cmd := none, arg := relayBit relay }.startCommand .get .getRd) :=
    (stepRunsTheCommandOnThePort s word _ hr).trans
      (exec_get_of_legal (s := { s with cmd := none }) hr.idle hc (relayLegal_iff.2 ⟨h₁, h₁₆⟩))
  have read := ((step_of_answer (s := { s with cmd := none, arg := relayBit relay }.startCommand .get .getRd)
    hr.noUnit hin rfl).trans (exec_get_of_getRd rfl)).trans (getRead_of_ok hin)
  refine ⟨_, run_two_of_steps accept read, ⟨rfl, by simp, ?_, by simp⟩, by simp [hin]⟩
  have bit : (relayBit relay).toNat < 16 := (relayBit relay).isLt
  rw [returnOk_rsp, ← relayBit_line h₁ h₁₆, ← getLsbD_io2r _ bit]
  rfl

/-- GET_ALL, its read answered, responds with OUTPUT in logical order. -/
theorem run_getAll_of_ready {word : PortWord} (hr : s.ready word .getAll) (hc : s.constructed = true)
    (hin : s.inputs = .answer .ok :: rest) : ∃ t, Host.Core.run core 2 s = .next t ∧
      t.ended (response statusOk 0x00#8 (io2r (s.device s.busId s.devAddr .output))) ∧ t.inputs = rest := by
  have accept : step s = .next ({ s with cmd := none }.startCommand .getAll .getAllRd) :=
    (stepRunsTheCommandOnThePort s word _ hr).trans (exec_getAll_of_idle (s := { s with cmd := none }) hr.idle hc)
  have read := ((step_of_answer (s := { s with cmd := none }.startCommand .getAll .getAllRd) hr.noUnit hin rfl).trans
    (exec_getAll_of_getAllRd rfl)).trans (getAllRead_of_ok hin)
  exact ⟨_, run_two_of_steps accept read, ⟨rfl, by simp, rfl, by simp⟩, by simp [hin]⟩

end

end Sys2Proof.Machine
end

section
/-! PROOFS. SET and SET_ALL as a whole: their outcomes (R156, R162), what GET and GET_ALL answer after them (R157, R162), and the
update that SET loses (R158). -/

namespace Sys2Proof.Machine

/-! ### The steps of SET -/

/-- Where an accepted SET waits for its read. -/
def State.setReadDue (s : State) (relay : Int) (on : Bool) : State :=
  { s with cmd := none, op := .set, arg := relayBit relay, flag := on, sess := true,
           xport := .opened s.busId :: s.xport, phase := .setRd, rsp := none }

/-- Where SET, having read `w`, waits for its write, with the moves `rest` to come. -/
def State.setWriteDue (s : State) (relay : Int) (on : Bool) (w : Word) (rest : List Input) : State :=
  { s.setReadDue relay on with
    inputs := rest, xport := .readOk s.devAddr 0x02#8 w :: .opened s.busId :: s.xport, tmp := w, phase := .setWr }

section

variable {s : State} {relay : Int} {on : Bool} {rest : List Input}

theorem step_to_setReadDue {word : PortWord} (hr : s.ready word (.set relay on)) (hc : s.constructed = true)
    (h₁ : 1 ≤ relay) (h₁₆ : relay ≤ 16) : step s = .next (s.setReadDue relay on) :=
  (stepRunsTheCommandOnThePort s word _ hr).trans
    ((setAcceptance relay on { s with cmd := none } hr.idle hc).1 h₁ h₁₆)

theorem step_to_setWriteDue (hu : s.unitPort = none) (hin : s.inputs = .answer .ok :: rest) :
    step (s.setReadDue relay on) = .next (s.setWriteDue relay on (s.device s.busId s.devAddr .output) rest) :=
  (step_of_answer (s := s.setReadDue relay on) hu hin rfl).trans
    ((setReadStep _ _ (s.setReadDue relay on) rest rfl rfl).2 hin _ rfl)

/-- SET writes the word it has read with the relay's physical bit changed. -/
theorem step_setWriteDue (hu : s.unitPort = none) (h₁ : 1 ≤ relay) (h₁₆ : relay ≤ 16) (w : Word) (a : Answer) :
    step (s.setWriteDue relay on w (.answer a :: rest)) =
      (s.setWriteDue relay on w (.answer a :: rest)).writeOutput (changeBit w (16 - relay.toNat) on) := by
  rw [← setWord_relayBit w h₁ h₁₆]
  exact (step_of_answer (s := s.setWriteDue relay on w (.answer a :: rest)) hu rfl rfl).trans (exec_set_of_setWr rfl)

/-- A write to OUTPUT made while SET waits for its write changes nothing that SET has latched. -/
theorem step_setWriteDue_of_masterWrite (hu : s.unitPort = none) (w v : Word) :
    step (s.setWriteDue relay on w (.masterWrite s.busId s.devAddr .output v :: rest)) =
      .next ((s.setDevice s.busId s.devAddr .output v).setWriteDue relay on w rest) :=
  step_of_move hu nofun nofun

end

/-- Settles O28: the acceptance, the read step and the write step one after the other. -/
theorem setOutcomes : Obligations.SetOutcomes := by
  unfold Obligations.SetOutcomes
  intro s word relay on rest hr hc
  refine ⟨fun illegal => run_one_of_step ?_, ?_⟩
  · rw [stepRunsTheCommandOnThePort s word _ hr]
    exact (setAcceptance relay on { s with cmd := none } hr.idle hc).2 illegal hr.closed
  rintro h₁ h₁₆ _ _ rfl rfl
  have accept := step_to_setReadDue hr hc h₁ h₁₆
  have hu := hr.noUnit
  have write a := step_setWriteDue (on := on) (rest := rest) hu h₁ h₁₆ (s.device s.busId s.devAddr .output) a
  refine ⟨fun c left hin => ?_, fun hin => ?_, fun c left hin => ?_⟩
  · have read := (step_of_answer (s := s.setReadDue relay on) hu hin rfl).trans
      ((setReadStep _ _ (s.setReadDue relay on) rest rfl rfl).1 c left hin)
    exact ⟨_, run_two_of_steps accept read, ⟨rfl, rfl, rfl, rfl⟩, ⟨rfl, rfl, rfl, rfl, rfl, rfl⟩, rfl, rfl, rfl⟩
  · have written := (write .ok).trans (writeOutput_of_ok rfl rfl)
    exact ⟨_, run_three_of_steps accept (step_to_setWriteDue hu hin) written, ⟨rfl, rfl, rfl, rfl⟩,
      ⟨rfl, rfl, rfl, rfl, rfl, rfl⟩, Memory.readWord_writeWord_self _ _ _,
      sameBytesBut_setDevice s s.busId s.devAddr .output _, rfl, rfl⟩
  · have failed := (write (.err c left)).trans (writeOutput_of_err rfl rfl)
    exact ⟨_, run_three_of_steps accept (step_to_setWriteDue hu hin) failed, ⟨rfl, rfl, rfl, rfl⟩,
      ⟨rfl, rfl, rfl, rfl, rfl, rfl⟩, Memory.readWord_writeWord_self _ _ _,
      sameBytesBut_setDevice s s.busId s.devAddr .output left, rfl, rfl⟩

/-- Settles O29: SET leaves the relay's bit of OUTPUT at `on`, and GET then reads that bit. -/
theorem setThenGetAnswersWhatWasSet : Obligations.SetThenGetAnswersWhatWasSet := by
  unfold Obligations.SetThenGetAnswersWhatWasSet
  intro s word getWord relay on rest hr hc h₁ h₁₆ hd hin
  obtain ⟨t, hset, ended, board, hdev, -, hin', -⟩ := ((setOutcomes s word relay on _ hr hc).2 h₁ h₁₆ _ _ rfl rfl).2.1 hin
  have hu := board.unitPort.trans hr.noUnit
  have present := step_of_presented hu ended.taken hin'
  obtain ⟨u, hget, answered, moves⟩ := run_get_of_ready (s := { t with cmd := some getWord, inputs := .answer .ok :: rest })
    ⟨rfl, hd, ended.idle, ended.closed, hu⟩ (board.constructed.trans hc) h₁ h₁₆ rfl
  refine ⟨u, (run_add 3 hset).trans ((run_succ_of_step present 2).trans hget), ?_, moves⟩
  have bit : (t.device t.busId t.devAddr .output).getLsbD (16 - relay.toNat) = on := by
    rw [board.busId, board.devAddr, hdev]
    exact (getLsbD_changeBit _ (by omega) on _).trans (if_pos rfl)
  rw [← response_ok_boolData, ← bit]
  exact answered

/-- Settles O30: the write is the word read before the other master's write, with SET's own bit changed. -/
theorem setLosesAnUpdateMadeInBetween : Obligations.SetLosesAnUpdateMadeInBetween := by
  unfold Obligations.SetLosesAnUpdateMadeInBetween
  intro s word relay on v rest hr hc h₁ h₁₆ hin
  have hu := hr.noUnit
  have accept := step_to_setReadDue hr hc h₁ h₁₆
  have read := step_to_setWriteDue (on := on) (relay := relay) hu hin
  have update := step_setWriteDue_of_masterWrite (relay := relay) (on := on) (rest := .answer .ok :: rest) hu
    (s.device s.busId s.devAddr .output) v
  have write := (step_setWriteDue (s := s.setDevice s.busId s.devAddr .output v) (on := on) (rest := rest) hu h₁ h₁₆
    (s.device s.busId s.devAddr .output) .ok).trans (writeOutput_of_ok rfl rfl)
  refine ⟨_, _, _, run_two_of_steps accept read, rfl, run_three_of_steps accept read update, device_setDevice_self ..,
    (run_add 1 (run_three_of_steps accept read update)).trans (run_one_of_step write), ⟨rfl, rfl, rfl, rfl⟩, fun b _ => ?_⟩
  have line : b = 16 - relay.toNat ↔ (b : Int) = 16 - relay := by omega
  refine (congrArg (BitVec.getLsbD · b) (Memory.readWord_writeWord_self _ _ _)).trans ?_
  rw [getLsbD_changeBit _ (by omega)]
  simp only [line]

/-! ### SET_ALL -/

/-- Where an accepted SET_ALL waits for its write. -/
def State.setAllWriteDue (s : State) (mask : Word) : State :=
  { s with cmd := none, op := .setAll, data := mask, sess := true, xport := .opened s.busId :: s.xport,
           phase := .setAllWr, rsp := none }

/-- Where SET_ALL ends when its write succeeds, with the moves `rest` to come. -/
def State.setAllDone (s : State) (mask : Word) (rest : List Input) : State :=
  { s.setAllWriteDue mask with
    inputs := rest, sess := false,
    xport := .closed :: .writeOk s.devAddr 0x02#8 (r2io mask) :: .opened s.busId :: s.xport,
    mem := s.mem.writeWord (regAddr s.busId s.devAddr .output) (r2io mask), rsp := some 0x00000000#32, phase := .idle }

section

variable {s : State} {mask : Word} {a : Answer} {rest : List Input}

theorem step_to_setAllWriteDue {word : PortWord} (hr : s.ready word (.setAll mask)) (hc : s.constructed = true) :
    step s = .next (s.setAllWriteDue mask) :=
  (stepRunsTheCommandOnThePort s word _ hr).trans (setAllAcceptance mask { s with cmd := none } hr.idle hc)

/-- SET_ALL writes the mask in physical order. -/
theorem step_setAllWriteDue (hu : s.unitPort = none) (mask : Word) (hin : s.inputs = .answer a :: rest) :
    step (s.setAllWriteDue mask) = (s.setAllWriteDue mask).writeOutput (r2io mask) :=
  (step_of_answer (s := s.setAllWriteDue mask) hu hin rfl).trans (exec_setAll_of_setAllWr rfl)

theorem run_setAll_of_ok {word : PortWord} (hr : s.ready word (.setAll mask)) (hc : s.constructed = true)
    (hin : s.inputs = .answer .ok :: rest) : Host.Core.run core 2 s = .next (s.setAllDone mask rest) :=
  run_two_of_steps (step_to_setAllWriteDue hr hc)
    ((step_setAllWriteDue hr.noUnit mask hin).trans (writeOutput_of_ok rfl hin))

theorem device_setAllDone : (s.setAllDone mask rest).device s.busId s.devAddr .output = r2io mask :=
  Memory.readWord_writeWord_self _ _ _

end

/-- Settles O33: the acceptance and the write step one after the other, and GET_ALL after them undoes the reversal. -/
theorem setAllOutcomes : Obligations.SetAllOutcomes := by
  unfold Obligations.SetAllOutcomes
  intro s word mask rest hr hc
  have accept := step_to_setAllWriteDue hr hc
  refine ⟨fun hin => ?_, fun c left hin => ?_, fun getAllWord hd hin => ?_⟩
  · exact ⟨_, run_setAll_of_ok hr hc hin, ⟨rfl, rfl, rfl, rfl⟩, ⟨rfl, rfl, rfl, rfl, rfl, rfl⟩, device_setAllDone,
      sameBytesBut_setDevice s s.busId s.devAddr .output _, rfl, rfl⟩
  · have failed := (step_setAllWriteDue hr.noUnit mask hin).trans (writeOutput_of_err rfl hin)
    exact ⟨_, run_two_of_steps accept failed, ⟨rfl, rfl, rfl, rfl⟩,
      ⟨rfl, rfl, rfl, rfl, rfl, rfl⟩, Memory.readWord_writeWord_self _ _ _,
      sameBytesBut_setDevice s s.busId s.devAddr .output left, rfl, rfl⟩
  · have present := step_of_presented (s := s.setAllDone mask (.command getAllWord :: .answer .ok :: rest))
      hr.noUnit rfl rfl
    obtain ⟨u, hget, answered, moves⟩ := run_getAll_of_ready (rest := rest)
      (s := { s.setAllDone mask (.answer .ok :: rest) with cmd := some getAllWord })
      ⟨rfl, hd, rfl, rfl, hr.noUnit⟩ hc rfl
    refine ⟨u, (run_add 3 (run_setAll_of_ok hr hc hin)).trans ((run_succ_of_step present 2).trans hget), ?_, moves⟩
    have data : io2r ((s.setAllDone mask (.answer .ok :: rest)).device s.busId s.devAddr .output) = mask := by
      rw [device_setAllDone]
      exact remapUnitsAreMutualInverses.1 mask
    rw [← response_ok_data, ← data]
    exact answered

end Sys2Proof.Machine
end

section
/-! PROOFS. GET and GET_ALL step by step: acceptance (R171, R176) and the read step (R172, R173, R177), which the two commands
share but for the data they respond with. -/

namespace Sys2Proof.Machine

/-! ### Acceptance -/

theorem not_relayLegal {relay : Int} (outside : relay < 1 ∨ 16 < relay) : ¬relayLegal relay = true := by
  rw [relayLegal_iff]
  omega

theorem exec_get_of_illegal {s : State} {relay : Int} (hp : s.phase = .idle) (hc : s.constructed = true)
    (illegal : ¬relayLegal relay = true) : exec (.get relay) s = .next (s.raise .invalidArgument) := by
  simp [exec, execGet, hp, getAccept, hc, illegal]

/-- Settles O34: the two answers of the range check, the second taken as an exception of an idle block. -/
theorem getAcceptance : Obligations.GetAcceptance := by
  unfold Obligations.GetAcceptance
  intro relay s hp hc
  refine ⟨fun h₁ h₁₆ => exec_get_of_legal hp hc (relayLegal_iff.2 ⟨h₁, h₁₆⟩), fun outside hs => ?_⟩
  rw [exec_get_of_illegal hp hc (not_relayLegal outside), raise_of_idle hp hs]
  rfl

/-- Settles O36: GET_ALL has no operand to check. -/
theorem getAllAcceptance : Obligations.GetAllAcceptance := fun _ => exec_getAll_of_idle

/-! ### The read step -/

/-- The read of OUTPUT with which GET and GET_ALL both end; `data` is what the command makes of the word read. -/
def State.readOutput (s : State) (data : Word → Word) : Host.Outcome State Fault Refusal :=
  match s.memRead .output with
  | .waiting => .next s
  | .err c s' => .next (s'.raise (.operationError c))
  | .ok w s' => .next (s'.returnOk (data w))

theorem getRead_eq_readOutput (s : State) :
    getRead s = s.readOutput fun w => boolData ((io2r w).getLsbD s.arg.toNat) := rfl

theorem getAllRead_eq_readOutput (s : State) : getAllRead s = s.readOutput io2r := rfl

section

variable {s : State} {data : Word → Word} {rest : List Input}

theorem readOutput_of_err {c : Cause} {left : Word} (hs : s.sess = true) (hin : s.inputs = .answer (.err c left) :: rest) :
    s.readOutput data = .next { s with
      inputs := rest, sess := false, xport := .closed :: .readErr s.devAddr 0x02#8 c :: s.xport,
      rsp := some (response 0x3#4 c.code 0x0000#16), phase := .idle } := by
  simp only [State.readOutput, memRead_of_err _ hin, raise_answered_of_open hs, hin]
  rfl

theorem readOutput_of_ok (hs : s.sess = true) (hin : s.inputs = .answer .ok :: rest) {w : Word}
    (hw : s.device s.busId s.devAddr .output = w) : s.readOutput data = .next { s with
      inputs := rest, sess := false, xport := .closed :: .readOk s.devAddr 0x02#8 w :: s.xport,
      rsp := some (response statusOk 0x00#8 (data w)), phase := .idle } := by
  subst hw
  simp only [State.readOutput, memRead_of_ok _ hin, returnOk_answered_of_open hs, hin]
  rfl

end

/-- GET's response: the logical bit that ARG names is the physical bit counted from the other end of the word (R173). -/
theorem response_getData (w : Word) (arg : BitVec 4) : response statusOk 0x00#8 (boolData ((io2r w).getLsbD arg.toNat)) =
    if w.getLsbD (15 - arg.toNat) then 0x00000001#32 else 0x00000000#32 := by
  have harg : arg.toNat < 16 := arg.isLt
  rw [response_ok_boolData, getLsbD_io2r w harg]

/-- Settles O35: the outcomes of the read transaction, the result in the physical form of R173. -/
theorem getReadStep : Obligations.GetReadStep := by
  unfold Obligations.GetReadStep
  intro relay s rest hp hs
  rw [exec_get_of_getRd hp, getRead_eq_readOutput]
  refine ⟨fun _ _ => readOutput_of_err hs, fun hin w hw => ?_⟩
  rw [readOutput_of_ok hs hin hw, response_getData]

/-- Settles O37: the outcomes of the read transaction, the result the word in logical order. -/
theorem getAllReadStep : Obligations.GetAllReadStep := by
  unfold Obligations.GetAllReadStep
  intro s rest hp hs
  rw [exec_getAll_of_getAllRd hp, getAllRead_eq_readOutput]
  refine ⟨fun _ _ => readOutput_of_err hs, fun hin w hw => ?_⟩
  rw [readOutput_of_ok hs hin hw, response_ok_data]

end Sys2Proof.Machine
end

section
/-! PROOFS. GET and GET_ALL as a whole: their outcomes row by row (R174, R178), each the acceptance followed by one read. -/

namespace Sys2Proof.Machine

/-- Where an accepted GET or GET_ALL waits for its read. -/
def State.readDue (s : State) (o : Op) (arg : BitVec 4) (p : Phase) : State :=
  { s with cmd := none, op := o, arg := arg, sess := true, xport := .opened s.busId :: s.xport, phase := p, rsp := none }

/-- A read command started in `s` is over in `t` with response `r`: its one transaction was recorded as `x`, the moves `rest`
are still to come, and the device and the Board are as they were. -/
def State.readEnds (s t : State) (r : PortWord) (x : BusRecord) (rest : List Input) : Prop :=
  t.ended r ∧ s.sameBoard t ∧ t.mem = s.mem ∧ t.inputs = rest ∧ t.xport = [.closed, x, .opened s.busId] ++ s.xport

section

variable {s : State} {word : PortWord} {relay : Int} {a : Answer} {rest : List Input}

theorem step_get_to_readDue (hr : s.ready word (.get relay)) (hc : s.constructed = true) (h₁ : 1 ≤ relay)
    (h₁₆ : relay ≤ 16) : step s = .next (s.readDue .get (relayBit relay) .getRd) :=
  (stepRunsTheCommandOnThePort s word _ hr).trans ((getAcceptance relay { s with cmd := none } hr.idle hc).1 h₁ h₁₆)

theorem step_getAll_to_readDue (hr : s.ready word .getAll) (hc : s.constructed = true) :
    step s = .next (s.readDue .getAll s.arg .getAllRd) :=
  (stepRunsTheCommandOnThePort s word _ hr).trans (getAllAcceptance { s with cmd := none } hr.idle hc)

/-- The answer to the read due resumes GET. -/
theorem step_readDue_of_getRd (hu : s.unitPort = none) (o : Op) (arg : BitVec 4) (hin : s.inputs = .answer a :: rest) :
    step (s.readDue o arg .getRd) =
      (s.readDue o arg .getRd).readOutput fun w => boolData ((io2r w).getLsbD arg.toNat) :=
  (step_of_answer (s := s.readDue o arg .getRd) hu hin rfl).trans (exec_get_of_getRd rfl)

/-- The answer to the read due resumes GET_ALL. -/
theorem step_readDue_of_getAllRd (hu : s.unitPort = none) (o : Op) (arg : BitVec 4) (hin : s.inputs = .answer a :: rest) :
    step (s.readDue o arg .getAllRd) = (s.readDue o arg .getAllRd).readOutput io2r :=
  (step_of_answer (s := s.readDue o arg .getAllRd) hu hin rfl).trans (exec_getAll_of_getAllRd rfl)

end

section

variable {s : State} {o : Op} {arg : BitVec 4} {p : Phase} {data : Word → Word} {rest : List Input}
  (accept : step s = .next (s.readDue o arg p)) (resume : step (s.readDue o arg p) = (s.readDue o arg p).readOutput data)
include accept resume

theorem run_read_of_err {c : Cause} {left : Word} (hin : s.inputs = .answer (.err c left) :: rest) :
    ∃ t, Host.Core.run core 2 s = .next t ∧
      s.readEnds t (response 0x3#4 c.code 0x0000#16) (.readErr s.devAddr 0x02#8 c) rest :=
  ⟨_, run_two_of_steps accept (resume.trans (readOutput_of_err rfl hin)),
    ⟨rfl, rfl, rfl, rfl⟩, ⟨rfl, rfl, rfl, rfl, rfl, rfl⟩, rfl, rfl, rfl⟩

theorem run_read_of_ok (hin : s.inputs = .answer .ok :: rest) {w : Word} (hw : s.device s.busId s.devAddr .output = w) :
    ∃ t, Host.Core.run core 2 s = .next t ∧
      s.readEnds t (response statusOk 0x00#8 (data w)) (.readOk s.devAddr 0x02#8 w) rest :=
  ⟨_, run_two_of_steps accept (resume.trans (readOutput_of_ok (s := s.readDue o arg p) rfl hin hw)),
    ⟨rfl, rfl, rfl, rfl⟩, ⟨rfl, rfl, rfl, rfl, rfl, rfl⟩, rfl, rfl, rfl⟩

end

/-- Settles O38: the acceptance and the read step one after the other. -/
theorem getOutcomes : Obligations.GetOutcomes := by
  unfold Obligations.GetOutcomes
  intro s word relay rest hr hc
  refine ⟨fun illegal => run_one_of_step ?_, fun h₁ h₁₆ w hw => ?_⟩
  · rw [stepRunsTheCommandOnThePort s word _ hr]
    exact (getAcceptance relay { s with cmd := none } hr.idle hc).2 illegal hr.closed
  have accept := step_get_to_readDue hr hc h₁ h₁₆
  refine ⟨fun c left hin => run_read_of_err accept (step_readDue_of_getRd hr.noUnit _ _ hin) hin, fun hin => ?_⟩
  rw [← relayBit_line h₁ h₁₆, ← response_getData]
  exact run_read_of_ok accept (step_readDue_of_getRd hr.noUnit _ _ hin) hin hw

/-- Settles O39: the acceptance and the read step one after the other; GET of a relay, run on the same state, is O38. -/
theorem getAllOutcomes : Obligations.GetAllOutcomes := by
  unfold Obligations.GetAllOutcomes
  intro s word rest hr hc w hw
  have accept := step_getAll_to_readDue hr hc
  have resume {a moves} := step_readDue_of_getAllRd (a := a) (rest := moves) hr.noUnit .getAll s.arg
  refine ⟨fun c left hin => run_read_of_err accept (resume hin) hin, fun hin => ?_⟩
  obtain ⟨t, run, ended, board, mem, moves, xport⟩ := run_read_of_ok accept (resume hin) hin hw
  rw [response_ok_data] at ended
  have bit : ∀ r, 1 ≤ r → r ≤ 16 → (io2r w).getLsbD (r - 1) = w.getLsbD (16 - r) := by
    intro r h₁ h₁₆
    rw [getLsbD_io2r w (by omega), show 15 - (r - 1) = 16 - r by omega]
  refine ⟨t, io2r w, run, rfl, bit, ended, board, mem, moves, xport, fun r getWord h₁ h₁₆ hd => ?_⟩
  have get := getOutcomes { s with cmd := some getWord } getWord r rest ⟨rfl, hd, hr.idle, hr.closed, hr.noUnit⟩ hc
  obtain ⟨t', run', ended', -⟩ := (get.2 (by omega) (by omega) w hw).2 hin
  rw [bit r h₁ h₁₆]
  exact ⟨t', run', ended'⟩

end Sys2Proof.Machine
end

section
/-! PROOFS. The read commands change neither the device nor a register that outlives them (R179): they run in phases where no
write is due. -/

namespace Sys2Proof.Machine

/-- A command answers a next state only at its acceptance or in a phase of its own. -/
theorem phase_of_exec_next {i : Instr} {s t : State} {o : Op} (hi : i.op = some o) (h : exec i s = .next t) :
    s.phase = .idle ∨ s.phase.command = some o := by
  by_contra hne
  rw [not_or] at hne
  rw [exec_of_other_command hi hne.1 hne.2] at h
  cases h

theorem Phase.read_cases {p : Phase} (h : p.command = some .get ∨ p.command = some .getAll) : p = .getRd ∨ p = .getAllRd := by
  cases p <;> simp [command] at h ⊢

theorem phase_of_read_next {i : Instr} {s t : State} (hi : i.op = some .get ∨ i.op = some .getAll)
    (h : exec i s = .next t) : s.phase = .idle ∨ s.phase = .getRd ∨ s.phase = .getAllRd := by
  rcases hi with hi | hi
  · exact (phase_of_exec_next hi h).imp_right fun hp => Phase.read_cases (.inl hp)
  · exact (phase_of_exec_next hi h).imp_right fun hp => Phase.read_cases (.inr hp)

theorem Phase.no_write_of_read {p : Phase} (hp : p = .idle ∨ p = .getRd ∨ p = .getAllRd) (reg : Reg) :
    p.request ≠ some (.write, reg) := by
  rcases hp with rfl | rfl | rfl <;> simp [request]

/-- A step that makes no write changes nothing in the register space. -/
theorem Transition.mem_eq_of_no_write {i : Instr} {s t : State} (h : Transition i s t)
    (hw : ∀ reg, s.phase.request ≠ some (.write, reg)) : t.mem = s.mem :=
  h.mem_eq_or_writes.resolve_right fun ⟨reg, _, due, _⟩ => hw reg due

/-- Where no write is due, no write is recorded. -/
theorem Transition.records_no_write {i : Instr} {s t : State} (h : Transition i s t)
    (hw : ∀ reg, s.phase.request ≠ some (.write, reg)) : ∃ new, t.xport = new ++ s.xport ∧
      ∀ x ∈ new, (∀ d o v, x ≠ .writeOk d o v) ∧ (∀ d o v c, x ≠ .writeErr d o v c) := by
  obtain ⟨session, txn, hxport, hsession, htxn⟩ := h.recordsOneAtMost
  refine ⟨session ++ txn.toList, hxport, fun x hx => ?_⟩
  rcases List.mem_append.1 hx with hx | hx
  · rcases hsession x hx with rfl | rfl <;> simp
  · cases htxn x (Option.mem_toList.1 hx) with
    | readOk | readErr | abandoned => simp
    | writeOk _ due | writeErr _ _ due => exact absurd due (hw _)

/-- A read command leaves the Board's registers, the function units and the latches of the other commands. -/
theorem Transition.read_keeps_registers {i : Instr} {s t : State} (h : Transition i s t)
    (hi : i.op = some .get ∨ i.op = some .getAll) (hp : s.phase = .idle ∨ s.phase = .getRd ∨ s.phase = .getAllRd) :
    s.sameBoard t ∧ t.data = s.data ∧ t.flag = s.flag ∧ t.tmp = s.tmp := by
  cases h
  case r2io | io2r | devaddr | acceptInit | acceptSet | acceptSetAll => simp [Instr.op] at hi
  case initReadZero phase _ | initReadNonzero phase _ | initWriteOk phase | setReadOk phase _ => simp [phase] at hp
  all_goals exact ⟨by constructor <;> simp, by simp⟩

/-- Settles O40: no phase of a read command has a write due, and none of its transitions latches anything but OP and ARG. -/
theorem readCommandsWriteNothing : Obligations.ReadCommandsWriteNothing := by
  unfold Obligations.ReadCommandsWriteNothing
  intro s t h
  obtain ⟨i, hi, h⟩ : ∃ i : Instr, (i.op = some .get ∨ i.op = some .getAll) ∧ exec i s = .next t := by
    rcases h with h | ⟨relay, h⟩
    · exact ⟨.getAll, .inr rfl, h⟩
    · exact ⟨.get relay, .inl rfl, h⟩
  have hp := phase_of_read_next hi h
  have no_write := Phase.no_write_of_read hp
  have ht := exec_next h
  obtain ⟨board, data, flag, tmp⟩ := ht.read_keeps_registers hi hp
  exact ⟨ht.mem_eq_of_no_write no_write, board, ht.cmd_eq, data, flag, tmp, ht.records_no_write no_write⟩

end Sys2Proof.Machine
end

section
/-! PROOFS. The commands outside their lifetime (R148, R191) and taking an exception (R190). -/

namespace Sys2Proof.Machine

/-! ### Commands outside their lifetime -/

/-- Before construction an idle block refuses every command but INIT: the range check comes after this one (R194). -/
theorem exec_of_not_constructed {i : Instr} {s : State} {o : Op} (hi : i.op = some o) (ho : o ≠ .init) (hp : s.phase = .idle)
    (hc : s.constructed = false) : exec i s = .refused .notConstructed := by
  cases i <;> cases hi
  case init => contradiction
  case set => simp [exec, execSet, hp, setAccept, hc]
  case setAll => simp [exec, execSetAll, hp, setAllAccept, hc]
  case get => simp [exec, execGet, hp, getAccept, hc]
  case getAll => simp [exec, execGetAll, hp, getAllAccept, hc]

theorem exec_init_of_constructed {s : State} {stack : Int} {bus : Byte} (hp : s.phase = .idle)
    (hc : s.constructed = true) : exec (.init stack bus) s = .refused .alreadyConstructed := by
  simp [exec, execInit, hp, initAccept, hc]

/-- Settles O41: acceptance looks at CONSTRUCTED before it looks at the operands. -/
theorem commandsOutsideTheirLifetimeAreRefused : Obligations.CommandsOutsideTheirLifetimeAreRefused := by
  unfold Obligations.CommandsOutsideTheirLifetimeAreRefused
  intro s hp
  refine ⟨fun hc => ?_, fun hc _ _ => exec_init_of_constructed hp hc⟩
  have refused {i : Instr} {o : Op} (hi : i.op = some o) (ho : o ≠ .init) : exec i s = .refused .notConstructed :=
    exec_of_not_constructed hi ho hp hc
  exact ⟨fun _ _ => refused rfl nofun, fun _ => refused rfl nofun, fun _ => refused rfl nofun, refused rfl nofun⟩

/-! ### Taking an exception -/

/-- An exception's response carries no data: status and cause are all of it. -/
theorem Exc.response_eq_status_or_info (e : Exc) :
    e.response = e.status.setWidth 32 <<< 28 ||| e.info.setWidth 32 <<< 16 := by
  simp [Exc.response, Machine.response]

theorem raise_of_open {s : State} (hs : s.sess = true) (e : Exc) : s.raise e =
    { s with sess := false, xport := .closed :: s.xport, rsp := some e.response, phase := .idle } := by
  rw [State.raise, closeSession_of_open hs]

theorem raise_of_closed {s : State} (hs : s.sess = false) (e : Exc) :
    s.raise e = { s with rsp := some e.response, phase := .idle } := by
  rw [State.raise, closeSession_of_closed hs]

/-- Settles O44: the session is closed where one is held, and the response is the word of R190. -/
theorem exceptionEntry : Obligations.ExceptionEntry := by
  unfold Obligations.ExceptionEntry
  intro s e word hw
  rw [hw, ← e.response_eq_status_or_info]
  exact ⟨fun hs => raise_of_open hs e, fun hs => raise_of_closed hs e⟩

end Sys2Proof.Machine
end

section
/-! PROOFS. The reset of the block (R215 to R217) and a device's power cycle (R216, R39): what each does to the
device's memory, and that nothing but the memory and the transport port depends on the transaction in flight. -/

namespace Sys2Proof.Machine

/-! ### The transaction a block reset abandons (R217) -/

/-- Abandoning the transaction in flight touches the memory and the transport port only. -/
theorem abandon_eq (s : State) (f : Option Word) :
    s.abandon f = { s with mem := (s.abandon f).mem, xport := (s.abandon f).xport } := by
  unfold State.abandon
  split <;> rfl

/-- An abandoned write has the effect of a failed one: any value (R56). -/
theorem abandon_mem_of_write {s : State} {reg : Reg} (due : s.phase.request = some (.write, reg)) (left : Word) :
    (s.abandon (some left)).mem = (s.setDevice s.busId s.devAddr reg left).mem := by
  simp [State.abandon, due, State.target]

theorem abandon_mem_of_no_write {s : State} (f : Option Word) (no_write : ∀ reg, s.phase.request ≠ some (.write, reg)) :
    (s.abandon f).mem = s.mem := by
  unfold State.abandon
  split
  case h_1 left reg due => exact absurd due (no_write reg)
  all_goals rfl

/-! ### The block reset -/

theorem blockReset_mem (s : State) (u : Unspecified) (f : Option Word) : (s.blockReset u f).mem = (s.abandon f).mem :=
  closeSession_mem _

theorem blockReset_sess (s : State) (u : Unspecified) (f : Option Word) : (s.blockReset u f).sess = false :=
  closeSession_sess _

theorem blockReset_inputs (s : State) (u : Unspecified) (f : Option Word) : (s.blockReset u f).inputs = s.inputs := by
  rw [State.blockReset, abandon_eq]
  exact closeSession_inputs _

theorem blockReset_units (s : State) (u : Unspecified) (f : Option Word) : (s.blockReset u f).units = s.units := by
  rw [State.blockReset, abandon_eq]
  exact closeSession_units _

/-- A reset with a write in flight leaves any value in the addressed register and every other byte as it reads. -/
theorem blockReset_of_write_inFlight {s : State} (u : Unspecified) (left : Word) {reg : Reg}
    (due : s.phase.request = some (.write, reg)) :
    (s.blockReset u (some left)).device s.busId s.devAddr reg = left ∧
      s.sameBytesBut (s.blockReset u (some left)) (regAddr s.busId s.devAddr reg) := by
  have stored := (blockReset_mem s u (some left)).trans (abandon_mem_of_write due left)
  rw [State.device, State.sameBytesBut, stored]
  exact ⟨device_setDevice_self .., sameBytesBut_setDevice s s.busId s.devAddr reg left⟩

theorem step_of_blockReset {s : State} {u : Unspecified} {f : Option Word} {rest : List Input} (hu : s.unitPort = none)
    (hc : s.phase = .idle → s.cmd = none) (h : s.inputs = .blockReset u f :: rest) :
    step s = .next ({ s with inputs := rest }.blockReset u f) := by
  rw [step_of_move hu hc (by simp [h]), State.envStep, h]

/-- Settles O53: each register is what the reset makes it, and the memory changes only by a write in flight, in a write phase. -/
theorem blockResetAbandonsTheCommand : Obligations.BlockResetAbandonsTheCommand := by
  unfold Obligations.BlockResetAbandonsTheCommand
  intro s u f rest hu hc h
  have write {reg : Reg} (left : Word) (due : s.phase.request = some (.write, reg)) :=
    blockReset_of_write_inFlight (s := { s with inputs := rest }) u left due
  refine ⟨_, step_of_blockReset hu hc h, rfl, rfl, blockReset_sess .., rfl, blockReset_cmd .., blockReset_inputs ..,
    blockReset_units .., rfl, rfl, rfl, rfl, rfl, rfl, rfl, rfl, ?_, ?_, ?_, ?_⟩
  · rintro rfl
    exact blockReset_mem { s with inputs := rest } u none
  · intro h₁ h₂ h₃
    rw [blockReset_mem, abandon_mem_of_no_write]
    intro reg due
    rcases Phase.write_cases due with hp | hp | hp <;> contradiction
  · rintro left rfl hp
    exact write left (by rw [hp]; rfl)
  · rintro left rfl hp
    exact write left (by rcases hp with hp | hp <;> rw [hp] <;> rfl)

/-! ### The power cycle of a device -/

theorem device_setDevice_other (s : State) (bus dev : Byte) {reg reg' : Reg} (v : Word) (hne : reg ≠ reg') :
    (s.setDevice bus dev reg' v).device bus dev reg = s.device bus dev reg :=
  Memory.readWord_writeWord_regAddr_other s.mem v (by simpa using hne)

/-- The four registers of a device fill the eight bytes from INPUT's low byte on (R28). -/
theorem readByte_setDevice_outside (s : State) {bus dev : Byte} (reg : Reg) (v : Word) {j : Nat}
    (hj : j < regAddr bus dev .input ∨ regAddr bus dev .input + 8 ≤ j) :
    (s.setDevice bus dev reg v).mem.readByte j = s.mem.readByte j := by
  have offset : regAddr bus dev reg = regAddr bus dev .input + reg.offset.toNat := by simp [regAddr, Reg.offset]
  have even := reg.offset_even
  exact sameBytesBut_setDevice s bus dev reg v j (by omega) (by omega)

section
variable (s : State) (bus dev : Byte) (o p c i : Word)

theorem powerCycle_device_input : (s.powerCycle bus dev o p c i).device bus dev .input = i := by
  simp [State.powerCycle, device_setDevice_other]

theorem powerCycle_device_output : (s.powerCycle bus dev o p c i).device bus dev .output = o := by
  simp [State.powerCycle, device_setDevice_other]

theorem powerCycle_device_polarityInversion : (s.powerCycle bus dev o p c i).device bus dev .polarityInversion = p := by
  simp [State.powerCycle, device_setDevice_other]

theorem powerCycle_device_configuration : (s.powerCycle bus dev o p c i).device bus dev .configuration = c :=
  device_setDevice_self ..

theorem powerCycle_readByte_outside {j : Nat} (hj : j < regAddr bus dev .input ∨ regAddr bus dev .input + 8 ≤ j) :
    (s.powerCycle bus dev o p c i).mem.readByte j = s.mem.readByte j := by
  simp only [State.powerCycle, readByte_setDevice_outside _ _ _ hj]

end

/-- Settles O55: a power cycle is four stores to registers that are apart. -/
theorem powerCycleIsNotNoticed : Obligations.PowerCycleIsNotNoticed := by
  unfold Obligations.PowerCycleIsNotNoticed
  intro s bus dev o p c i rest hu hc h
  have moved : step s = .next ({ s with inputs := rest }.powerCycle bus dev o p c i) := by
    rw [step_of_move hu hc (by simp [h]), State.envStep, h]
  exact ⟨_, moved, powerCycle_eq .., powerCycle_device_output .., powerCycle_device_polarityInversion ..,
    powerCycle_device_configuration .., powerCycle_device_input .., fun _ hj => powerCycle_readByte_outside (hj := hj) ..⟩

end Sys2Proof.Machine
end
